-- ==== Sys2Proof/Word.lean ====
section
/-! DEFINITION. The word types of the block: 8-bit registers, timers and memory cells; 16-bit pc, index register,
stack entries and instruction words (R12, R213); the 4-bit register and key indices (R33, R44). -/

namespace Sys2Proof

/-- An 8-bit value: a general register, a timer, a memory cell (R30, R33, R41, R42). -/
abbrev Byte := BitVec 8

/-- A 16-bit value: the program counter, the index register, a stack entry, an instruction word (R36, R37, R40, R100). -/
abbrev Word := BitVec 16

/-- The index of a general register, V0 to VF (R33). -/
abbrev RegIx := Fin 16

/-- The index of a key, 0x0 to 0xF (R44). -/
abbrev KeyIx := Fin 16

/-- `VF`, the register that is also the carry, borrow and collision flag (R34). -/
abbrev VF : RegIx := 15

end Sys2Proof
end

