-- ==== Sys2Proof/Syntax.lean ====
section
/-! DEFINITION. The instruction set: one constructor for each of the 34 rows of the opcode map (R110). A register
operand is an index 0 to 15; `nnn` is the 12-bit address zero-extended to the width of `pc` and `I` (R103); `n` is the
sprite's row count. WellFormed.lean says which `nnn` and `n` an instruction word can hold. -/

namespace Sys2Proof

/-- An instruction with its operands, as rule R111 decodes it. The comment on a constructor gives its pattern and
its rule. -/
inductive Instr where
  /-- `00E0` (R270) -/
  | cls
  /-- `00EE` (R170) -/
  | ret
  /-- `1nnn` (R171) -/
  | jp (nnn : Word)
  /-- `2nnn` (R172) -/
  | call (nnn : Word)
  /-- `3xkk` (R174) -/
  | seImm (x : RegIx) (kk : Byte)
  /-- `4xkk` (R175) -/
  | sneImm (x : RegIx) (kk : Byte)
  /-- `5xy0` (R176) -/
  | seReg (x y : RegIx)
  /-- `6xkk` (R200) -/
  | ldImm (x : RegIx) (kk : Byte)
  /-- `7xkk` (R201) -/
  | addImm (x : RegIx) (kk : Byte)
  /-- `8xy0` (R202) -/
  | ldReg (x y : RegIx)
  /-- `8xy1` (R203) -/
  | orReg (x y : RegIx)
  /-- `8xy2` (R204) -/
  | andReg (x y : RegIx)
  /-- `8xy3` (R205) -/
  | xorReg (x y : RegIx)
  /-- `8xy4` (R207) -/
  | addReg (x y : RegIx)
  /-- `8xy5` (R208) -/
  | subReg (x y : RegIx)
  /-- `8xy6` (R209); the `y` field is decoded and has no effect (R104) -/
  | shr (x y : RegIx)
  /-- `8xy7` (R210) -/
  | subnReg (x y : RegIx)
  /-- `8xyE` (R211); the `y` field is decoded and has no effect (R104) -/
  | shl (x y : RegIx)
  /-- `9xy0` (R177) -/
  | sneReg (x y : RegIx)
  /-- `Annn` (R240) -/
  | ldI (nnn : Word)
  /-- `Bnnn` (R178) -/
  | jpV0 (nnn : Word)
  /-- `Cxkk` (R212) -/
  | rnd (x : RegIx) (kk : Byte)
  /-- `Dxyn` (R272) -/
  | drw (x y : RegIx) (n : Nat)
  /-- `Ex9E` (R300) -/
  | skp (x : RegIx)
  /-- `ExA1` (R301) -/
  | sknp (x : RegIx)
  /-- `Fx07` (R304) -/
  | ldVxDT (x : RegIx)
  /-- `Fx0A` (R305) -/
  | ldVxK (x : RegIx)
  /-- `Fx15` (R306) -/
  | ldDTVx (x : RegIx)
  /-- `Fx18` (R307) -/
  | ldSTVx (x : RegIx)
  /-- `Fx1E` (R242) -/
  | addIVx (x : RegIx)
  /-- `Fx29` (R244) -/
  | ldFVx (x : RegIx)
  /-- `Fx33` (R245) -/
  | ldBVx (x : RegIx)
  /-- `Fx55` (R246) -/
  | storeRegs (x : RegIx)
  /-- `Fx65` (R247) -/
  | loadRegs (x : RegIx)
  deriving DecidableEq, Repr

end Sys2Proof
end

