-- ==== Sys2Proof/Decode.lean ====
section
/-! DEFINITION. Decoding an instruction word (R100 to R115), total on all 65536 words and on any bytes; then the
encoder, from the same opcode map; then the opcode map itself as match and mask rows (R110). -/

namespace Sys2Proof

/-- Why bytes are no instruction. -/
inductive Reject where
  /-- The word matches no row of the opcode map (R112). The machine does not stop on it: a step reports it and goes
  on (R148). -/
  | unknownOpcode (w : Word)
  /-- Fewer than two bytes: no instruction word (R100). Raised by `decodeBytes` only. -/
  | incompleteWord
  deriving DecidableEq, Repr

/-- What a word stands for: an instruction, or a rejection by name (R111). -/
inductive Decoded where
  | instr (i : Instr)
  | reject (r : Reject)
  deriving DecidableEq, Repr

/-! ### The fields of a word (R101) -/

/-- `op = w[15:12]` -/
def fieldOp (w : Word) : Nat := (w.extractLsb' 12 4).toNat

/-- `x = w[11:8]` -/
def fieldX (w : Word) : RegIx := (w.extractLsb' 8 4).toFin

/-- `y = w[7:4]` -/
def fieldY (w : Word) : RegIx := (w.extractLsb' 4 4).toFin

/-- `n = w[3:0]` -/
def fieldN (w : Word) : Nat := (w.extractLsb' 0 4).toNat

/-- `kk = w[7:0]` -/
def fieldKK (w : Word) : Byte := w.extractLsb' 0 8

/-- `nnn = w[11:0]`, zero-extended to 16 bits (R103) -/
def fieldNNN (w : Word) : Word := (w.extractLsb' 0 12).setWidth 16

/-! ### Decoding (R111) -/

/-- High nibble 0: matched against the whole word (R105, R113). -/
def decode0 (w : Word) : Decoded :=
  if w = 0x00E0 then .instr .cls
  else if w = 0x00EE then .instr .ret
  else .reject (.unknownOpcode w)

/-- High nibble 8: selected by the low nibble (R105, R110 rows 10 to 18). -/
def decode8 (w : Word) : Decoded :=
  match fieldN w with
  | 0x0 => .instr (.ldReg (fieldX w) (fieldY w))
  | 0x1 => .instr (.orReg (fieldX w) (fieldY w))
  | 0x2 => .instr (.andReg (fieldX w) (fieldY w))
  | 0x3 => .instr (.xorReg (fieldX w) (fieldY w))
  | 0x4 => .instr (.addReg (fieldX w) (fieldY w))
  | 0x5 => .instr (.subReg (fieldX w) (fieldY w))
  | 0x6 => .instr (.shr (fieldX w) (fieldY w))
  | 0x7 => .instr (.subnReg (fieldX w) (fieldY w))
  | 0xE => .instr (.shl (fieldX w) (fieldY w))
  | _ => .reject (.unknownOpcode w)

/-- High nibble E: selected by the low byte (R105). -/
def decodeE (w : Word) : Decoded :=
  match (fieldKK w).toNat with
  | 0x9E => .instr (.skp (fieldX w))
  | 0xA1 => .instr (.sknp (fieldX w))
  | _ => .reject (.unknownOpcode w)

/-- High nibble F: selected by the low byte (R105). -/
def decodeF (w : Word) : Decoded :=
  match (fieldKK w).toNat with
  | 0x07 => .instr (.ldVxDT (fieldX w))
  | 0x0A => .instr (.ldVxK (fieldX w))
  | 0x15 => .instr (.ldDTVx (fieldX w))
  | 0x18 => .instr (.ldSTVx (fieldX w))
  | 0x1E => .instr (.addIVx (fieldX w))
  | 0x29 => .instr (.ldFVx (fieldX w))
  | 0x33 => .instr (.ldBVx (fieldX w))
  | 0x55 => .instr (.storeRegs (fieldX w))
  | 0x65 => .instr (.loadRegs (fieldX w))
  | _ => .reject (.unknownOpcode w)

/-- The instruction a word stands for (R111). No state changes how a word decodes (R115). -/
def decode (w : Word) : Decoded :=
  match fieldOp w with
  | 0x0 => decode0 w
  | 0x1 => .instr (.jp (fieldNNN w))
  | 0x2 => .instr (.call (fieldNNN w))
  | 0x3 => .instr (.seImm (fieldX w) (fieldKK w))
  | 0x4 => .instr (.sneImm (fieldX w) (fieldKK w))
  | 0x5 => if fieldN w = 0 then .instr (.seReg (fieldX w) (fieldY w)) else .reject (.unknownOpcode w)
  | 0x6 => .instr (.ldImm (fieldX w) (fieldKK w))
  | 0x7 => .instr (.addImm (fieldX w) (fieldKK w))
  | 0x8 => decode8 w
  | 0x9 => if fieldN w = 0 then .instr (.sneReg (fieldX w) (fieldY w)) else .reject (.unknownOpcode w)
  | 0xA => .instr (.ldI (fieldNNN w))
  | 0xB => .instr (.jpV0 (fieldNNN w))
  | 0xC => .instr (.rnd (fieldX w) (fieldKK w))
  | 0xD => .instr (.drw (fieldX w) (fieldY w) (fieldN w))
  | 0xE => decodeE w
  | _ => decodeF w

/-- An instruction word from its two bytes, the byte at the lower address first: big-endian (R72, R100). -/
def wordOfBytes (hi lo : Byte) : Word := (hi.setWidth 16 <<< 8) ||| lo.setWidth 16

/-- Decoding from a list of bytes, giving back the bytes after the instruction: every instruction takes two (R100). -/
def decodeBytes : List Byte → Decoded × List Byte
  | hi :: lo :: rest => (decode (wordOfBytes hi lo), rest)
  | [_] => (.reject .incompleteWord, [])
  | [] => (.reject .incompleteWord, [])

/-- The two bytes of an instruction word as memory holds them, high byte first (R72, R100). -/
def bytesOfWord (w : Word) : List Byte := [w.extractLsb' 8 8, w.extractLsb' 0 8]

/-- The instruction the decoder reads from the word `w` of the opcode table's numbering; the bits above `nbits` are 0.
Every row of the table is one 16-bit word, so that its two bytes go to the decoder high byte first (R100). -/
def decodeTableWord (nbits w : Nat) : Option Instr :=
  match (decodeBytes (bytesOfWord (BitVec.ofNat 16 (w % 2 ^ nbits)))).1 with
  | .instr i => some i
  | .reject _ => none

/-! ### Encoding (R102, R110) -/

/-- A 4-bit field placed with its lowest bit at bit `lo`. -/
def nibbleAt (lo : Nat) (v : BitVec 4) : Word := v.setWidth 16 <<< lo

/-- A register index placed with its lowest bit at bit `lo`. -/
def regAt (lo : Nat) (x : RegIx) : Word := nibbleAt lo (BitVec.ofFin x)

/-- Format `NNN`. -/
def encodeNNN (op : BitVec 4) (nnn : Word) : Word := nibbleAt 12 op ||| (nnn &&& 0x0FFF)

/-- Format `XKK`, and format `X` with a fixed low byte. -/
def encodeXKK (op : BitVec 4) (x : RegIx) (kk : Byte) : Word :=
  nibbleAt 12 op ||| regAt 8 x ||| kk.setWidth 16

/-- Format `XYN`, and format `XY` with a fixed low nibble. -/
def encodeXYN (op : BitVec 4) (x y : RegIx) (n : BitVec 4) : Word :=
  nibbleAt 12 op ||| regAt 8 x ||| regAt 4 y ||| nibbleAt 0 n

/-- The word of an instruction, by the patterns of the opcode map (R110). -/
def encode : Instr → Word
  | .cls => 0x00E0
  | .ret => 0x00EE
  | .jp nnn => encodeNNN 0x1 nnn
  | .call nnn => encodeNNN 0x2 nnn
  | .seImm x kk => encodeXKK 0x3 x kk
  | .sneImm x kk => encodeXKK 0x4 x kk
  | .seReg x y => encodeXYN 0x5 x y 0x0
  | .ldImm x kk => encodeXKK 0x6 x kk
  | .addImm x kk => encodeXKK 0x7 x kk
  | .ldReg x y => encodeXYN 0x8 x y 0x0
  | .orReg x y => encodeXYN 0x8 x y 0x1
  | .andReg x y => encodeXYN 0x8 x y 0x2
  | .xorReg x y => encodeXYN 0x8 x y 0x3
  | .addReg x y => encodeXYN 0x8 x y 0x4
  | .subReg x y => encodeXYN 0x8 x y 0x5
  | .shr x y => encodeXYN 0x8 x y 0x6
  | .subnReg x y => encodeXYN 0x8 x y 0x7
  | .shl x y => encodeXYN 0x8 x y 0xE
  | .sneReg x y => encodeXYN 0x9 x y 0x0
  | .ldI nnn => encodeNNN 0xA nnn
  | .jpV0 nnn => encodeNNN 0xB nnn
  | .rnd x kk => encodeXKK 0xC x kk
  | .drw x y n => encodeXYN 0xD x y (BitVec.ofNat 4 n)
  | .skp x => encodeXKK 0xE x 0x9E
  | .sknp x => encodeXKK 0xE x 0xA1
  | .ldVxDT x => encodeXKK 0xF x 0x07
  | .ldVxK x => encodeXKK 0xF x 0x0A
  | .ldDTVx x => encodeXKK 0xF x 0x15
  | .ldSTVx x => encodeXKK 0xF x 0x18
  | .addIVx x => encodeXKK 0xF x 0x1E
  | .ldFVx x => encodeXKK 0xF x 0x29
  | .ldBVx x => encodeXKK 0xF x 0x33
  | .storeRegs x => encodeXKK 0xF x 0x55
  | .loadRegs x => encodeXKK 0xF x 0x65

/-! ### The opcode map as match and mask (R110) -/

/-- A row of the opcode map: a word selects it when `(w & mask) == pattern` (R110). -/
structure OpRow where
  row : Nat
  pattern : Word
  mask : Word
  deriving DecidableEq, Repr

/-- The word selects the row (R110). -/
def OpRow.selects (r : OpRow) (w : Word) : Bool := w &&& r.mask = r.pattern

/-- Rows 1 to 9: the fixed words, the jumps, the skips on a literal, the loads and adds of a literal (R110). -/
def opcodeRowsA : List OpRow :=
  [⟨1, 0x00E0, 0xFFFF⟩, ⟨2, 0x00EE, 0xFFFF⟩, ⟨3, 0x1000, 0xF000⟩, ⟨4, 0x2000, 0xF000⟩, ⟨5, 0x3000, 0xF000⟩,
   ⟨6, 0x4000, 0xF000⟩, ⟨7, 0x5000, 0xF00F⟩, ⟨8, 0x6000, 0xF000⟩, ⟨9, 0x7000, 0xF000⟩]

/-- Rows 10 to 18: the `8xy_` family (R110, decision D7). -/
def opcodeRowsB : List OpRow :=
  [⟨10, 0x8000, 0xF00F⟩, ⟨11, 0x8001, 0xF00F⟩, ⟨12, 0x8002, 0xF00F⟩, ⟨13, 0x8003, 0xF00F⟩, ⟨14, 0x8004, 0xF00F⟩,
   ⟨15, 0x8005, 0xF00F⟩, ⟨16, 0x8006, 0xF00F⟩, ⟨17, 0x8007, 0xF00F⟩, ⟨18, 0x800E, 0xF00F⟩]

/-- Rows 19 to 25: `9xy0` to the key tests (R110). -/
def opcodeRowsC : List OpRow :=
  [⟨19, 0x9000, 0xF00F⟩, ⟨20, 0xA000, 0xF000⟩, ⟨21, 0xB000, 0xF000⟩, ⟨22, 0xC000, 0xF000⟩, ⟨23, 0xD000, 0xF000⟩,
   ⟨24, 0xE09E, 0xF0FF⟩, ⟨25, 0xE0A1, 0xF0FF⟩]

/-- Rows 26 to 34: the `Fx__` family (R110). -/
def opcodeRowsD : List OpRow :=
  [⟨26, 0xF007, 0xF0FF⟩, ⟨27, 0xF00A, 0xF0FF⟩, ⟨28, 0xF015, 0xF0FF⟩, ⟨29, 0xF018, 0xF0FF⟩, ⟨30, 0xF01E, 0xF0FF⟩,
   ⟨31, 0xF029, 0xF0FF⟩, ⟨32, 0xF033, 0xF0FF⟩, ⟨33, 0xF055, 0xF0FF⟩, ⟨34, 0xF065, 0xF0FF⟩]

/-- The complete opcode map, rows 1 to 34 (R110). -/
def opcodeMap : List OpRow := opcodeRowsA ++ opcodeRowsB ++ opcodeRowsC ++ opcodeRowsD

/-- The number of the opcode map's row that the instruction is (R110). -/
def Instr.rowNumber : Instr → Nat
  | .cls => 1
  | .ret => 2
  | .jp _ => 3
  | .call _ => 4
  | .seImm _ _ => 5
  | .sneImm _ _ => 6
  | .seReg _ _ => 7
  | .ldImm _ _ => 8
  | .addImm _ _ => 9
  | .ldReg _ _ => 10
  | .orReg _ _ => 11
  | .andReg _ _ => 12
  | .xorReg _ _ => 13
  | .addReg _ _ => 14
  | .subReg _ _ => 15
  | .shr _ _ => 16
  | .subnReg _ _ => 17
  | .shl _ _ => 18
  | .sneReg _ _ => 19
  | .ldI _ => 20
  | .jpV0 _ => 21
  | .rnd _ _ => 22
  | .drw _ _ _ => 23
  | .skp _ => 24
  | .sknp _ => 25
  | .ldVxDT _ => 26
  | .ldVxK _ => 27
  | .ldDTVx _ => 28
  | .ldSTVx _ => 29
  | .addIVx _ => 30
  | .ldFVx _ => 31
  | .ldBVx _ => 32
  | .storeRegs _ => 33
  | .loadRegs _ => 34

end Sys2Proof
end

