-- ==== Sys2Proof/Config.lean ====
section
/-! DEFINITION. The parameters of this hardware (R8) and its one free value, the random byte (R151, R212). The
configuration constant FONT stands in Sys2Proof/Machine/Font.lean. -/

namespace Sys2Proof.Config

/-- `MEM_SIZE`: 4096 bytes, addresses 0x000 to 0xFFF (R8, R30). -/
abbrev memSize : Nat := 4096

/-- `STACK_DEPTH`: the call stack holds at most 16 return addresses (R8, R40; log entry 8). -/
abbrev stackDepth : Nat := 16

/-- `FB_W`: the framebuffer is 64 pixels wide (R8, R43). -/
abbrev fbWidth : Nat := 64

/-- `FB_H`: the framebuffer is 32 pixels high (R8, R43). -/
abbrev fbHeight : Nat := 32

/-- `IMAGE_BASE`: where a program image is loaded (R8, R403). -/
abbrev imageBase : Nat := 0x200

/-- `IMAGE_MAX`: the longest program image, 3584 bytes (R8, R404). -/
abbrev imageMax : Nat := memSize - imageBase

/-- `PC_RESET`: the entry point (R8, R37). -/
abbrev pcReset : Word := 0x200

/-- FREE VALUE. `RAND`, the random byte that draw number `k` gives: an input of the step that the spec leaves free
(R151, R212, decision D19). It has no body, so that nothing can be proved of its values: a statement about `Cxkk`
holds for every byte. DESIGN CHOICE, log entry 1. -/
opaque randomByte : Nat → Byte

end Sys2Proof.Config
end

