-- ==== Sys2Proof/Machine/Font.lean ====
section
/-! DEFINITION. The configuration constant FONT (R8, R31): 16 glyphs of 5 bytes, glyph d at addresses 5*d to 5*d+4.
The byte values are the spec's own choice (decision D25; log entry 7). It stands in this folder so that a repair may
mend a byte of it. -/

namespace Sys2Proof.Config

/-- Glyphs 0 to 3 (R31). -/
def fontRows0 : List Byte :=
  [0xF0, 0x90, 0x90, 0x90, 0xF0,  0x20, 0x60, 0x20, 0x20, 0x70,
   0xF0, 0x10, 0xF0, 0x80, 0xF0,  0xF0, 0x10, 0xF0, 0x10, 0xF0]

/-- Glyphs 4 to 7 (R31). -/
def fontRows4 : List Byte :=
  [0x90, 0x90, 0xF0, 0x10, 0x10,  0xF0, 0x80, 0xF0, 0x10, 0xF0,
   0xF0, 0x80, 0xF0, 0x90, 0xF0,  0xF0, 0x10, 0x20, 0x40, 0x40]

/-- Glyphs 8 to B (R31). -/
def fontRows8 : List Byte :=
  [0xF0, 0x90, 0xF0, 0x90, 0xF0,  0xF0, 0x90, 0xF0, 0x10, 0xF0,
   0xF0, 0x90, 0xF0, 0x90, 0x90,  0xE0, 0x90, 0xE0, 0x90, 0xE0]

/-- Glyphs C to F (R31). -/
def fontRowsC : List Byte :=
  [0xF0, 0x80, 0x80, 0x80, 0xF0,  0xE0, 0x90, 0x90, 0x90, 0xE0,
   0xF0, 0x80, 0xF0, 0x80, 0xF0,  0xF0, 0x80, 0xF0, 0x80, 0x80]

/-- `FONT`: the 80 font bytes (R31). -/
def font : List Byte := fontRows0 ++ fontRows4 ++ fontRows8 ++ fontRowsC

end Sys2Proof.Config
end

