-- ==== Sys2Proof/Machine/State.lean ====
section
/-! DEFINITION. The state of the block (R50), the record a step returns (R331), the reasons the block halts (R361),
and the state after `initialize()` (R400). -/

namespace Sys2Proof.Machine

/-- Which access left memory: an instruction fetch or a data access (R361). -/
inductive AccessKind where
  | fetch
  | data
  deriving DecidableEq, Repr

/-- The fatal errors and the info each records (R361). Raising one is not a stop of this model: it sets the fault
latch and the machine goes on to a next state, in which every step reports the error again (R365, R141). -/
inductive FatalError where
  /-- Code 1. A fetch with `pc ≥ 0xFFF` records `pc`; a data access beyond memory records the lowest address ≥ 4096
  (R143, R241). -/
  | outOfBounds (kind : AccessKind) (address : Nat)
  /-- Code 2. `2nnn` with 16 entries held records its `pc` (R172). -/
  | stackOverflow (pc : Word)
  /-- Code 3. `00EE` with an empty stack records its `pc` (R170). -/
  | stackUnderflow (pc : Word)
  /-- Code 5. `Ex9E` or `ExA1` with `V[x] > 0xF` records `V[x]` (R302). -/
  | invalidKeyIndex (value : Byte)
  deriving DecidableEq, Repr

/-- The `error` field of a step's outcome (R331). -/
inductive StepError where
  /-- Code 0. -/
  | noError
  /-- Code 4, not fatal: the word fetched matches no row of the opcode map (R148, R366). -/
  | unknownOpcode (word : Word)
  | fatal (e : FatalError)
  deriving DecidableEq, Repr

/-- `StepOutcome`: what a step returns to the host (R330, R331). -/
structure StepOutcome where
  redraw : Bool
  halted : Bool
  waiting : Bool
  error : StepError
  deriving DecidableEq, Repr

/-- The wait state `WAIT`: a pending `Fx0A` with its register index, and the key pressed since, if any (R45). -/
inductive WaitState where
  | idle
  | waiting (x : RegIx) (key : Option KeyIx)
  deriving DecidableEq, Repr

/-- Memory: the cells whose byte differs from the reset contents, by rising address (log entry 6). -/
abbrev Memory := List Host.Cell

/-- The framebuffer, 32 rows of 64 pixels; pixel (x, y), which is `FB[y*64+x]`, is bit x of row y (R43; log entry
12). -/
abbrev Framebuffer := Vector (BitVec Config.fbWidth) Config.fbHeight

/-- The complete state record (R50), and two fields of the model's own: `out` and `draws`. -/
structure State where
  /-- `MEM[0..4095]` (R30) -/
  mem : Memory
  /-- `V[0..15]` (R33) -/
  v : Vector Byte 16
  /-- `I` (R36) -/
  i : Word
  /-- `pc` (R37) -/
  pc : Word
  /-- `STK[0..15]` (R40) -/
  stk : Vector Word Config.stackDepth
  /-- `SP`, the number of entries held, 0 to 16 (R40) -/
  sp : Fin (Config.stackDepth + 1)
  /-- `DT` (R41) -/
  dt : Byte
  /-- `ST` (R42) -/
  st : Byte
  /-- `FB[0..2047]` (R43) -/
  fb : Framebuffer
  /-- `KEY[0..15]`, true when pressed (R44) -/
  keys : Vector Bool 16
  /-- `WAIT` (R45) -/
  wait : WaitState
  /-- `FAULT` (R46) -/
  fault : Option FatalError
  /-- The MODEL's own field: the outcome the last step returned. The spec returns it and stores it nowhere (R49); no
  rule of the model reads it. DESIGN CHOICE, log entry 2. -/
  out : StepOutcome
  /-- The MODEL's own field: how many random bytes have been drawn. DESIGN CHOICE, log entry 1. -/
  draws : Nat
  deriving DecidableEq, Repr

/-- The reasons the MODEL's step could stop. There is none: every fatal error of the spec is a next state with `FAULT`
set (R365; log entry 3), so that this type has no constructor. SAFE: nothing stops. -/
inductive Fault where
  deriving DecidableEq, Repr

/-- The reasons the model could refuse an instruction. -/
inductive Refusal where
  /-- An instruction that has no meaning yet. No arm of `exec` raises it. SAFE where raised. -/
  | notModelled (mnemonic : String)
  deriving DecidableEq, Repr

/-- The outcome a step starts from (R149). -/
def StepOutcome.quiet : StepOutcome := ⟨false, false, false, .noError⟩

/-- The state after `initialize()` (R400, R50): memory at its reset contents, every register, timer, key and pixel 0,
the stack empty, no wait and no fault, `pc` at 0x200. -/
def State.reset : State where
  mem := []
  v := .replicate 16 0
  i := 0
  pc := Config.pcReset
  stk := .replicate Config.stackDepth 0
  sp := 0
  dt := 0
  st := 0
  fb := .replicate Config.fbHeight 0
  keys := .replicate 16 false
  wait := .idle
  fault := none
  out := .quiet
  draws := 0

end Sys2Proof.Machine
end

