-- ==== Sys2Proof/Machine/Ops.lean ====
section
/-! DEFINITION. The named operations over memory, registers, the program counter, the call stack and the framebuffer;
raising a fatal error (the block's only trap, R365); and what a step does when it executes no instruction. -/

namespace Sys2Proof.Machine

/-- What a step or a meaning answers. -/
abbrev Result := Host.Outcome State Fault Refusal

/-! ### Memory (R30, R70 to R79) -/

/-- The reset contents, which an unlisted address reads as: FONT at 0x000 to 0x04F, 0 elsewhere (R30, R31, R50). -/
def unlisted (a : Nat) : Byte := Config.font.getD a 0

/-- The canonical form: addresses strictly rising, each below 4096, and no cell equal to the reset contents. -/
abbrev Memory.wf (m : Memory) : Prop :=
  m.Pairwise (fun c d => c.1 < d.1) ∧ ∀ c ∈ m, c.1 < Config.memSize ∧ c.2 ≠ unlisted c.1

/-- `MemRead(a, 1)` (R14). -/
def readByte (m : Memory) (a : Nat) : Byte :=
  match m with
  | [] => unlisted a
  | c :: rest => if c.1 = a then c.2 else readByte rest a

/-- Puts a cell in its place by address. -/
def insertCell (a : Nat) (b : Byte) : Memory → Memory
  | [] => [(a, b)]
  | c :: rest => if a < c.1 then (a, b) :: c :: rest else c :: insertCell a b rest

/-- The cells at every address but `a`. -/
def removeCell (a : Nat) (m : Memory) : Memory := m.filter (fun c => c.1 != a)

/-- `MemWrite(a, 1, b)`; an address ≥ 4096 does not reach memory (R14). -/
def writeByte (m : Memory) (a : Nat) (b : Byte) : Memory :=
  if a < Config.memSize then
    if b = unlisted a then removeCell a m else insertCell a b (removeCell a m)
  else m

/-- Writes bytes at rising addresses from `a`, in order (R79). -/
def writeBytes (m : Memory) (a : Nat) : List Byte → Memory
  | [] => m
  | b :: rest => writeBytes (writeByte m a b) (a + 1) rest

/-- The lowest address ≥ 4096 among the `len` addresses from `base`, if there is one (R241). -/
def firstOutside (base len : Nat) : Option Nat :=
  if len = 0 ∨ base + len ≤ Config.memSize then none else some (max base Config.memSize)

/-! ### Registers (R13, R33, R36, R41, R42) -/

/-- `V[x]` -/
def State.getV (s : State) (x : RegIx) : Byte := s.v[x]

/-- `V[x] <- b` -/
def State.setV (s : State) (x : RegIx) (b : Byte) : State := { s with v := s.v.set x b }

/-- `V[0], …, V[x]` (R246). -/
def State.regsUpTo (s : State) (x : RegIx) : List Byte := s.v.toList.take (x.val + 1)

/-- `V[j] <- f j` for every j from 0 to x (R247). -/
def State.setRegsUpTo (s : State) (x : RegIx) (f : Nat → Byte) : State :=
  { s with v := .ofFn fun j => if j ≤ x then f j.val else s.v[j] }

/-- `I <- w` -/
def State.setI (s : State) (w : Word) : State := { s with i := w }

/-- `DT <- b` -/
def State.setDT (s : State) (b : Byte) : State := { s with dt := b }

/-- `ST <- b` -/
def State.setST (s : State) (b : Byte) : State := { s with st := b }

/-- Memory becomes `m`. -/
def State.setMem (s : State) (m : Memory) : State := { s with mem := m }

/-- The framebuffer becomes `f`. -/
def State.setFB (s : State) (f : Framebuffer) : State := { s with fb := f }

/-! ### The program counter and the outcome (R145, R149) -/

/-- `npc`, the address after the instruction at `pc` (R145). -/
def State.npc (s : State) : Word := s.pc + 2

/-- `pc <- target`, with the quiet outcome (R146, R149). -/
def State.goto (s : State) (target : Word) : State := { s with pc := target, out := .quiet }

/-- `pc <- npc`, with the quiet outcome (R145, R149). -/
def State.advance (s : State) : State := s.goto s.npc

/-- The common skip rule (R173). -/
def State.skipIf (s : State) (c : Bool) : State := s.goto (if c then s.npc + 2 else s.npc)

/-- `signal redraw` (R15). -/
def State.signalRedraw (s : State) : State := { s with out := { s.out with redraw := true } }

/-! ### The call stack (R40) -/

/-- `push(v)`: `STK[SP] <- v; SP <- SP + 1`; none when 16 entries are held. -/
def State.push (s : State) (v : Word) : Option State :=
  if h : s.sp.val < Config.stackDepth then
    some { s with stk := s.stk.set s.sp.val v h, sp := ⟨s.sp.val + 1, Nat.succ_lt_succ h⟩ }
  else none

/-- `pop()`: `SP <- SP - 1; return STK[SP]`; none when no entry is held. -/
def State.pop (s : State) : Option (Word × State) :=
  match s.sp with
  | ⟨0, _⟩ => none
  | ⟨k + 1, h⟩ => some (s.stk[k]'(Nat.lt_of_succ_lt_succ h), { s with sp := ⟨k, Nat.lt_of_succ_lt h⟩ })

/-- `STK[k]`; 0 for an index the stack does not have (R40). -/
def State.entry (s : State) (k : Nat) : Word := s.stk.toList.getD k 0

/-! ### The framebuffer (R43, R271) -/

/-- `FB[idx]` -/
def getPixel (f : Framebuffer) (idx : Nat) : Bool :=
  if h : idx / Config.fbWidth < Config.fbHeight then f[idx / Config.fbWidth].getLsbD (idx % Config.fbWidth)
  else false

/-- `FB[idx] <- FB[idx] ^ 1` -/
def flipPixel (f : Framebuffer) (idx : Nat) : Framebuffer :=
  if h : idx / Config.fbWidth < Config.fbHeight then
    f.set (idx / Config.fbWidth)
      (f[idx / Config.fbWidth] ^^^ BitVec.twoPow Config.fbWidth (idx % Config.fbWidth))
  else f

/-- Every pixel 0 (R270). -/
def clearFB : Framebuffer := .replicate Config.fbHeight 0

/-! ### Fatal errors: the block's only trap, and the way out of it -/

/-- Raising a fatal error (R365): `FAULT` is set and nothing else of the machine changes, `pc` stays at the faulting
instruction, and the step's outcome is halted with the error. There is no handler and no vector. -/
def State.fatal (s : State) (e : FatalError) : State :=
  { s with fault := some e, out := ⟨false, true, false, .fatal e⟩ }

/-- There is no return from a fatal error but `initialize()`, which resets the whole machine (R367, R400). The count
of random bytes drawn goes on, so that a second run does not draw the first run's bytes (log entry 1). -/
def State.reinit (s : State) : State := { State.reset with draws := s.draws }

/-- The check of an instruction that accesses the `len` addresses from `I` before any access (R241, R75): `t` is the
state it ends in if every address is in memory. -/
def State.ifInMemory (s : State) (len : Nat) (t : State) : State :=
  match firstOutside s.i.toNat len with
  | some a => s.fatal (.outOfBounds .data a)
  | none => t

/-! ### A step that executes no instruction -/

/-- A step under a latched fault changes nothing and reports the fault again (R141). -/
def State.reportFault (s : State) (e : FatalError) : State :=
  { s with out := ⟨false, true, false, .fatal e⟩ }

/-- `signal waiting`: a step that executes or finds an unsatisfied `Fx0A` (R142, R305). -/
def State.reportWaiting (s : State) : State := { s with out := ⟨false, false, true, .noError⟩ }

/-- The step that completes a pending `Fx0A`: `V[x] <- k; pc <- pc + 2; WAIT <- none` (R142). -/
def State.completeWait (s : State) (x : RegIx) (k : KeyIx) : State :=
  ({ s with wait := .idle }.setV x (BitVec.ofNat 8 k.val)).advance

/-- An unknown word: `pc <- npc`, reported and not halted (R148). -/
def State.reportUnknown (s : State) (w : Word) : State :=
  { s with pc := s.npc, out := ⟨false, false, false, .unknownOpcode w⟩ }

/-- The address of the next instruction's first byte is one a word can be fetched from (R143). -/
def State.fetchable (s : State) : Bool := s.pc.toNat < 0xFFF

/-- `w <- (MemRead(pc, 1) << 8) | MemRead(pc + 1, 1)` (R143, R72). -/
def State.fetchWord (s : State) : Word :=
  wordOfBytes (readByte s.mem s.pc.toNat) (readByte s.mem (s.pc.toNat + 1))

/-- Runs the fetched word: an instruction by `run`, an unknown word by its report (R147, R148). -/
def State.runWord (s : State) (w : Word) (run : Instr → State → Result) : Result :=
  match decode w with
  | .instr i => run i s
  | .reject _ => .next (s.reportUnknown w)

/-! ### Error codes (R361) -/

/-- The code of a step error (R361). -/
def StepError.code : StepError → Nat
  | .noError => 0
  | .fatal (.outOfBounds _ _) => 1
  | .fatal (.stackOverflow _) => 2
  | .fatal (.stackUnderflow _) => 3
  | .unknownOpcode _ => 4
  | .fatal (.invalidKeyIndex _) => 5

end Sys2Proof.Machine
end

