-- ==== Sys2Proof/Machine/Operands.lean ====
section
/-! DEFINITION. The operands instructions compute: a key index from a register (R302), the bytes and bits of a
sprite and where its pixels land (R271), the decimal digits of a byte (R245), the address of a glyph (R244). -/

namespace Sys2Proof.Machine

/-- The key that an 8-bit value names, if it is at most 0xF (R302). -/
def keyOf (b : Byte) : Option KeyIx :=
  if h : b.toNat < 16 then some ⟨b.toNat, h⟩ else none

/-- The three decimal digits of a byte, hundreds first (R245, decision D13). -/
def decimalDigits (b : Byte) : List Byte :=
  [BitVec.ofNat 8 (b.toNat / 100), BitVec.ofNat 8 (b.toNat / 10 % 10), BitVec.ofNat 8 (b.toNat % 10)]

/-- The address of the glyph of a value, `V[x] * 5`, for values above 0xF too (R244, decision D17). -/
def glyphAddress (b : Byte) : Word := BitVec.ofNat 16 (b.toNat * 5)

/-- `(I + V[x]) mod 4096` (R242). -/
def indexPlus (i : Word) (b : Byte) : Word := BitVec.ofNat 16 ((i.toNat + b.toNat) % 4096)

/-- Column c of a sprite row is bit 7 − c of its byte (R271, decision D14). -/
def spriteBit (b : Byte) (c : Nat) : Bool := b.getLsbD (7 - c)

/-- The framebuffer index of a sprite's row r, column c, for the start coordinates cx, cy: each coordinate wraps on
its own (R271). -/
def pixelIndex (cx cy : Byte) (r c : Nat) : Nat :=
  (cy.toNat + r) % Config.fbHeight * Config.fbWidth + (cx.toNat + c) % Config.fbWidth

end Sys2Proof.Machine
end

