-- ==== Sys2Proof/Machine/Flags.lean ====
section
/-! DEFINITION. The flag computations: carry, borrow and shifted-out bit, each the pair of an 8-bit result and a flag
(R206 to R211), the order of the two writes (R206), and the collision flag of a drawing (R272). `VF` is the only flag
(R47). -/

namespace Sys2Proof.Machine

/-- The value of a flag in a register, 0 or 1 (R206). -/
def flagByte (f : Bool) : Byte := if f then 1 else 0

/-- Sum and carry (R207). -/
def addCarry (a b : Byte) : Byte × Bool :=
  (BitVec.ofNat 8 (a.toNat + b.toNat), decide (a.toNat + b.toNat > 255))

/-- Difference a − b and the no-borrow flag (R208, decision D8); R210 is the same with the operands exchanged. -/
def subNoBorrow (a b : Byte) : Byte × Bool :=
  (BitVec.ofInt 8 ((a.toNat : Int) - b.toNat), decide (a.toNat ≥ b.toNat))

/-- Right shift by one and the bit shifted out (R209). -/
def shiftRightOut (a : Byte) : Byte × Bool := (a >>> 1, a.getLsbD 0)

/-- Left shift by one and the bit shifted out (R211). -/
def shiftLeftOut (a : Byte) : Byte × Bool := (a <<< 1, a.getLsbD 7)

/-- `V[x] <- r`, then `VF <- f`, the flag last (R206, decision D11). -/
def State.setResultFlag (s : State) (x : RegIx) (p : Byte × Bool) : State :=
  (s.setV x p.1).setV VF (flagByte p.2)

/-- A framebuffer being drawn on, with the collision flag so far. -/
abbrev Drawing := Framebuffer × Bool

/-- Flips a pixel; one that was on is a collision (R272). -/
def drawPixel (d : Drawing) (idx : Nat) : Drawing := (flipPixel d.1 idx, d.2 || getPixel d.1 idx)

/-- One row of a sprite: the pixels of its set bits, columns 0 to 7 (R272). -/
def drawRow (cx cy : Byte) (r : Nat) (b : Byte) (d : Drawing) : Drawing :=
  (List.range 8).foldl (fun d c => if spriteBit b c then drawPixel d (pixelIndex cx cy r c) else d) d

/-- The sprite of `n` bytes at `base`, rows 0 to n−1 (R272). -/
def drawSprite (m : Memory) (base : Nat) (cx cy : Byte) (n : Nat) (d : Drawing) : Drawing :=
  (List.range n).foldl (fun d r => drawRow cx cy r (readByte m (base + r)) d) d

end Sys2Proof.Machine
end

