-- ==== Sys2Proof/Machine/Alu.lean ====
section
/-! DEFINITION. The meanings of the register loads and the ALU (42_alu.md, R200 to R213). -/

namespace Sys2Proof.Machine

/-- `6xkk` (R200). -/
def execLdImm (x : RegIx) (kk : Byte) (s : State) : Result := .next (s.setV x kk).advance

/-- `7xkk`: no flag (R201). -/
def execAddImm (x : RegIx) (kk : Byte) (s : State) : Result :=
  .next (s.setV x (BitVec.ofNat 8 ((s.getV x).toNat + kk.toNat))).advance

/-- `8xy0` (R202). -/
def execLdReg (x y : RegIx) (s : State) : Result := .next (s.setV x (s.getV y)).advance

/-- `8xy1`: no flag (R203, decision D10). -/
def execOrReg (x y : RegIx) (s : State) : Result := .next (s.setV x (s.getV x ||| s.getV y)).advance

/-- `8xy2`: no flag (R204, decision D10). -/
def execAndReg (x y : RegIx) (s : State) : Result := .next (s.setV x (s.getV x &&& s.getV y)).advance

/-- `8xy3`: no flag (R205, decision D10). -/
def execXorReg (x y : RegIx) (s : State) : Result := .next (s.setV x (s.getV x ^^^ s.getV y)).advance

/-- `8xy4` (R207). -/
def execAddReg (x y : RegIx) (s : State) : Result :=
  .next (s.setResultFlag x (addCarry (s.getV x) (s.getV y))).advance

/-- `8xy5` (R208). -/
def execSubReg (x y : RegIx) (s : State) : Result :=
  .next (s.setResultFlag x (subNoBorrow (s.getV x) (s.getV y))).advance

/-- `8xy6`: shifts `V[x]`; `y` has no effect (R209, decision D9). -/
def execShr (x _y : RegIx) (s : State) : Result :=
  .next (s.setResultFlag x (shiftRightOut (s.getV x))).advance

/-- `8xy7` (R210). -/
def execSubnReg (x y : RegIx) (s : State) : Result :=
  .next (s.setResultFlag x (subNoBorrow (s.getV y) (s.getV x))).advance

/-- `8xyE`: shifts `V[x]`; `y` has no effect (R211, decision D9). -/
def execShl (x _y : RegIx) (s : State) : Result :=
  .next (s.setResultFlag x (shiftLeftOut (s.getV x))).advance

/-- `Cxkk` for a given random byte: `V[x] <- RAND & kk` (R212). One byte is drawn. -/
def rndWith (rand : Byte) (x : RegIx) (kk : Byte) (s : State) : State :=
  ({ s with draws := s.draws + 1 }.setV x (rand &&& kk)).advance

/-- `Cxkk`, with the free value `RAND` (R212, R151; log entry 1). -/
def execRnd (x : RegIx) (kk : Byte) (s : State) : Result :=
  .next (rndWith (Config.randomByte s.draws) x kk s)

end Sys2Proof.Machine
end

