-- ==== Sys2Proof/Machine/Display.lean ====
section
/-! DEFINITION. The meanings of the framebuffer instructions (44_display.md, R270 to R274). -/

namespace Sys2Proof.Machine

/-- `00E0` (R270). -/
def execCls (s : State) : Result := .next (s.setFB clearFB).advance.signalRedraw

/-- The state after `Dxyn` with every sprite byte in memory: the coordinates are read before `VF` is written
(R272, decision D15). -/
def drawn (x y : RegIx) (n : Nat) (s : State) : State :=
  let d := drawSprite s.mem s.i.toNat (s.getV x) (s.getV y) n (s.fb, false)
  ((s.setFB d.1).setV VF (flagByte d.2)).advance.signalRedraw

/-- `Dxyn` (R272). -/
def execDrw (x y : RegIx) (n : Nat) (s : State) : Result := .next (s.ifInMemory n (drawn x y n s))

end Sys2Proof.Machine
end

