-- ==== Sys2Proof/Machine/Flow.lean ====
section
/-! DEFINITION. The meanings of the control-flow instructions (41_flow.md, R170 to R179). -/

namespace Sys2Proof.Machine

/-- `00EE` (R170). -/
def execRet (s : State) : Result :=
  match s.pop with
  | some (target, t) => .next (t.goto target)
  | none => .next (s.fatal (.stackUnderflow s.pc))

/-- `1nnn` (R171). -/
def execJp (nnn : Word) (s : State) : Result := .next (s.goto nnn)

/-- `2nnn`: pushes `npc` (R172, conflict C2). -/
def execCall (nnn : Word) (s : State) : Result :=
  match s.push s.npc with
  | some t => .next (t.goto nnn)
  | none => .next (s.fatal (.stackOverflow s.pc))

/-- `3xkk` (R174). -/
def execSeImm (x : RegIx) (kk : Byte) (s : State) : Result := .next (s.skipIf (s.getV x == kk))

/-- `4xkk` (R175). -/
def execSneImm (x : RegIx) (kk : Byte) (s : State) : Result := .next (s.skipIf (s.getV x != kk))

/-- `5xy0` (R176). -/
def execSeReg (x y : RegIx) (s : State) : Result := .next (s.skipIf (s.getV x == s.getV y))

/-- `9xy0` (R177). -/
def execSneReg (x y : RegIx) (s : State) : Result := .next (s.skipIf (s.getV x != s.getV y))

/-- `Bnnn`: the sum is not reduced modulo 4096 (R178, decision D4). -/
def execJpV0 (nnn : Word) (s : State) : Result := .next (s.goto (nnn + (s.getV 0).setWidth 16))

end Sys2Proof.Machine
end

