-- ==== Sys2Proof/Machine/IndexMemory.lean ====
section
/-! DEFINITION. The meanings of the index register and memory-block instructions (43_index_memory.md, R240 to R248).
None of them changes `I` but its three writers (R248, decision D12). -/

namespace Sys2Proof.Machine

/-- `Annn` (R240). -/
def execLdI (nnn : Word) (s : State) : Result := .next (s.setI nnn).advance

/-- `Fx1E` (R242). -/
def execAddIVx (x : RegIx) (s : State) : Result := .next (s.setI (indexPlus s.i (s.getV x))).advance

/-- `Fx29` (R244). -/
def execLdFVx (x : RegIx) (s : State) : Result := .next (s.setI (glyphAddress (s.getV x))).advance

/-- `Fx33` (R245). -/
def execLdBVx (x : RegIx) (s : State) : Result :=
  .next (s.ifInMemory 3 (s.setMem (writeBytes s.mem s.i.toNat (decimalDigits (s.getV x)))).advance)

/-- `Fx55` (R246). -/
def execStoreRegs (x : RegIx) (s : State) : Result :=
  .next (s.ifInMemory (x.val + 1) (s.setMem (writeBytes s.mem s.i.toNat (s.regsUpTo x))).advance)

/-- `Fx65` (R247). -/
def execLoadRegs (x : RegIx) (s : State) : Result :=
  .next (s.ifInMemory (x.val + 1) (s.setRegsUpTo x fun j => readByte s.mem (s.i.toNat + j)).advance)

end Sys2Proof.Machine
end

