-- ==== Sys2Proof/Machine/InputTimers.lean ====
section
/-! DEFINITION. The meanings of the key and timer instructions (45_input_timers.md, R300 to R307). -/

namespace Sys2Proof.Machine

/-- `Ex9E` (R300, R302). -/
def execSkp (x : RegIx) (s : State) : Result :=
  match keyOf (s.getV x) with
  | some k => .next (s.skipIf s.keys[k])
  | none => .next (s.fatal (.invalidKeyIndex (s.getV x)))

/-- `ExA1` (R301, R302). -/
def execSknp (x : RegIx) (s : State) : Result :=
  match keyOf (s.getV x) with
  | some k => .next (s.skipIf (!s.keys[k]))
  | none => .next (s.fatal (.invalidKeyIndex (s.getV x)))

/-- `Fx07` (R304). -/
def execLdVxDT (x : RegIx) (s : State) : Result := .next (s.setV x s.dt).advance

/-- `Fx0A`: starts the wait and leaves `pc` at its own address (R305, conflict C5). -/
def execLdVxK (x : RegIx) (s : State) : Result :=
  .next { s with wait := .waiting x none }.reportWaiting

/-- `Fx15` (R306). -/
def execLdDTVx (x : RegIx) (s : State) : Result := .next (s.setDT (s.getV x)).advance

/-- `Fx18` (R307). -/
def execLdSTVx (x : RegIx) (s : State) : Result := .next (s.setST (s.getV x)).advance

end Sys2Proof.Machine
end

