-- ==== Sys2Proof/Machine/Step.lean ====
section
/-! DEFINITION. One fetch-decode-execute step (R150), and how a single instruction word is placed where the next step
fetches it. -/

namespace Sys2Proof.Machine

/-- One call of `step()` (R150). The cases stand in the priority order of R364: a latched fault, a pending wait, the
fetch bound, an unknown word, the instruction. The outcome record is the next state's `out`. -/
def step (s : State) : Host.Outcome State Fault Refusal :=
  match s.fault with
  | some e => .next (s.reportFault e)
  | none =>
    match s.wait with
    | .waiting _ none => .next s.reportWaiting
    | .waiting x (some k) => .next (s.completeWait x k)
    | .idle =>
      if s.fetchable then s.runWord s.fetchWord exec
      else .next (s.fatal (.outOfBounds .fetch s.pc.toNat))

/-- The state with the word `w` stored at `pc`, high byte first, no fault latched and no wait pending, so that the
next step fetches and runs it; where nothing can be fetched at `pc`, `pc` goes to 0x200 first. -/
def State.withFetchWord (s : State) (nbits w : Nat) : State :=
  let p : Word := if s.fetchable then s.pc else Config.pcReset
  { s with
    mem := writeBytes s.mem p.toNat (bytesOfWord (BitVec.ofNat 16 (w % 2 ^ nbits)))
    pc := p
    wait := .idle
    fault := none }

end Sys2Proof.Machine
end

