-- ==== Sys2Proof/Machine/HostCalls.lean ====
section
/-! DEFINITION. The operations the host calls on the block (46_host_interface.md and R400 to R406), each an atomic
transaction, and a run as a sequence of them (R339). A step takes no host event: what the host does between steps is
a call of its own. -/

namespace Sys2Proof.Machine

/-- The errors of the host's calls. They are no step errors and never set `FAULT` (R361). -/
inductive CallError where
  /-- `load_image` with more than 3584 bytes (R404). -/
  | imageTooLarge
  /-- `set_key` with an index outside 0 to 15 (R335). -/
  | invalidKeyIndex
  deriving DecidableEq, Repr

/-- The calls of rule R330. A key index is any integer, so that `set_key` can reject one (R334). -/
inductive HostCall where
  | initAll
  | loadImage (bytes : List Byte)
  | stepOnce
  | tickTimers
  | setKey (index : Int) (pressed : Bool)
  | getFramebuffer
  | getSoundTimer
  deriving DecidableEq, Repr

/-- What a call returns (R330). -/
inductive Reply where
  | done
  | failed (e : CallError)
  | outcome (o : StepOutcome)
  | framebuffer (f : Framebuffer)
  | soundTimer (b : Byte)
  deriving DecidableEq, Repr

/-- A press event is recorded by a wait that has none yet (R334, R45). -/
def WaitState.press (w : WaitState) (k : KeyIx) : WaitState :=
  match w with
  | .waiting x none => .waiting x (some k)
  | .waiting x (some j) => .waiting x (some j)
  | .idle => .idle

/-- `set_key` for an index of the latch: the latch is updated, and a change from released to pressed is a press event
(R334, decision D18). -/
def State.putKey (s : State) (k : KeyIx) (pressed : Bool) : State :=
  { s with
    keys := s.keys.set k pressed
    wait := if pressed && !s.keys[k] then s.wait.press k else s.wait }

/-- `set_key(index, pressed)` (R334, R335). -/
def State.setKey (s : State) (index : Int) (pressed : Bool) : Except CallError State :=
  if h : 0 ≤ index ∧ index < 16 then .ok (s.putKey ⟨index.toNat, by omega⟩ pressed)
  else .error .invalidKeyIndex

/-- A timer is decremented toward zero, never below (R336). -/
def countDown (b : Byte) : Byte := if b.toNat > 0 then b - 1 else b

/-- `tick_timers()` (R336). -/
def State.tickTimers (s : State) : State := { s with dt := countDown s.dt, st := countDown s.st }

/-- `load_image(bytes)`: memory from 0x200, nothing else (R403, R404, R406). -/
def State.loadImage (s : State) (bytes : List Byte) : Except CallError State :=
  if bytes.length > Config.imageMax then .error .imageTooLarge
  else .ok (s.setMem (writeBytes s.mem Config.imageBase bytes))

/-- The reply and the state of a call that can fail: the state is unchanged where it fails (R335, R404). -/
def State.callResult (s : State) : Except CallError State → Reply × State
  | .ok t => (.done, t)
  | .error e => (.failed e, s)

/-- One call of the host (R330, R339). -/
def State.perform (s : State) : HostCall → Reply × State
  | .initAll => (.done, s.reinit)
  | .loadImage bytes => s.callResult (s.loadImage bytes)
  | .stepOnce =>
    match step s with
    | .next t => (.outcome t.out, t)
    | .fault _ => (.outcome s.out, s)
    | .refused _ => (.outcome s.out, s)
  | .tickTimers => (.done, s.tickTimers)
  | .setKey index pressed => s.callResult (s.setKey index pressed)
  | .getFramebuffer => (.framebuffer s.fb, s)
  | .getSoundTimer => (.soundTimer s.st, s)

/-- A run of the block: a sequence of calls, each complete before the next begins (R339). -/
def State.performAll (s : State) : List HostCall → State
  | [] => s
  | c :: rest => (s.perform c).2.performAll rest

end Sys2Proof.Machine
end

