-- ==== Sys2Proof/Safety.lean ====
section
/-! DEFINITION. The terms claims use: which words are unknown, the parts of the state and what is left unchanged, the
shape of an instruction's effect, and the invariant that every step and every call of the host keeps. -/

namespace Sys2Proof.Machine

/-! ### Words -/

/-- The word, written out as a number from its pattern (R110), stands for the instruction. -/
def StandsFor (w : Nat) (i : Instr) : Prop := decode (BitVec.ofNat 16 w) = .instr i

/-- The word, written out as a number, is unknown (R112). -/
def StandsForNone (w : Nat) : Prop := decode (BitVec.ofNat 16 w) = .reject (.unknownOpcode (BitVec.ofNat 16 w))

/-- The words of rule R112, by high nibble, low nibble and low byte. -/
def UnknownWord (w : Word) : Prop :=
  let op := w.toNat / 4096
  let n := w.toNat % 16
  let kk := w.toNat % 256
  (op = 0 ∧ w.toNat ≠ 0x00E0 ∧ w.toNat ≠ 0x00EE) ∨ ((op = 5 ∨ op = 9) ∧ n ≠ 0) ∨
    (op = 8 ∧ (n = 8 ∨ n = 9 ∨ n = 0xA ∨ n = 0xB ∨ n = 0xC ∨ n = 0xD ∨ n = 0xF)) ∨
    (op = 0xE ∧ kk ≠ 0x9E ∧ kk ≠ 0xA1) ∨
    (op = 0xF ∧ kk ≠ 0x07 ∧ kk ≠ 0x0A ∧ kk ≠ 0x15 ∧ kk ≠ 0x18 ∧ kk ≠ 0x1E ∧ kk ≠ 0x29 ∧ kk ≠ 0x33 ∧ kk ≠ 0x55 ∧
      kk ≠ 0x65)

/-! ### When a step fetches -/

/-- No fault is latched and no wait is pending, so that a step fetches (R141, R142). -/
def State.Running (s : State) : Prop := s.fault = none ∧ s.wait = .idle

/-- A step fetches a word: running, and both its bytes are in memory (R143). -/
def State.Fetches (s : State) : Prop := s.Running ∧ s.pc.toNat < 0xFFF

/-- A step from `s` fetches the instruction `i`. -/
def State.Runs (s : State) (i : Instr) : Prop := s.Fetches ∧ decode s.fetchWord = .instr i

/-! ### What is left unchanged -/

/-- The parts of the state (R50), and the count of random bytes drawn. -/
inductive Part where
  | mem
  | regs
  | index
  | pc
  | stack
  | dt
  | st
  | fb
  | keys
  | wait
  | fault
  | draws
  deriving DecidableEq, Repr

/-- The byte at an address. -/
def State.byteAt (s : State) (a : Nat) : Byte := readByte s.mem a

/-- A part is the same in both states: memory byte by byte, the registers one by one. -/
def Part.Same (s t : State) : Part → Prop
  | .mem => ∀ a, t.byteAt a = s.byteAt a
  | .regs => ∀ r, t.getV r = s.getV r
  | .index => t.i = s.i
  | .pc => t.pc = s.pc
  | .stack => t.sp = s.sp ∧ t.stk = s.stk
  | .dt => t.dt = s.dt
  | .st => t.st = s.st
  | .fb => t.fb = s.fb
  | .keys => t.keys = s.keys
  | .wait => t.wait = s.wait
  | .fault => t.fault = s.fault
  | .draws => t.draws = s.draws

/-- From `s` to `t` every part but those named is the same. -/
def OnlyChanges (parts : List Part) (s t : State) : Prop := ∀ p, p ∉ parts → p.Same s t

/-- Every register but those named is the same. -/
def RegsSameBut (rs : List RegIx) (s t : State) : Prop := ∀ r, r ∉ rs → t.getV r = s.getV r

/-- Every byte of memory outside the `len` bytes from `a` is the same. -/
def MemSameOutside (a len : Nat) (s t : State) : Prop :=
  ∀ b, ¬ (a ≤ b ∧ b < a + len) → t.byteAt b = s.byteAt b

/-- From `s` to `t` a fatal error is raised: the latch is set, nothing else changes, the step reports it (R365). -/
def Raises (e : FatalError) (s t : State) : Prop :=
  t.fault = some e ∧ OnlyChanges [.fault] s t ∧ t.out = ⟨false, true, false, .fatal e⟩

/-! ### The shapes of an instruction's effect -/

/-- The instruction completes by writing the number `r` to `V[x]` and moving on, and does nothing else. -/
def SetsRegister (i : Instr) (x : RegIx) (r : Nat) (s : State) : Prop :=
  ∃ t, exec i s = .next t ∧ (t.getV x).toNat = r ∧ RegsSameBut [x] s t ∧ t.pc = s.pc + 2 ∧
    OnlyChanges [.regs, .pc] s t ∧ t.out = .quiet

/-- The instruction completes by writing the number `r` to `V[x]` and then the flag `f` to `VF`, moves on, and does
nothing else (R206). -/
def SetsRegisterAndFlag (i : Instr) (x : RegIx) (r f : Nat) (s : State) : Prop :=
  ∃ t, exec i s = .next t ∧ (x ≠ VF → (t.getV x).toNat = r) ∧ (t.getV VF).toNat = f ∧ RegsSameBut [x, VF] s t ∧
    t.pc = s.pc + 2 ∧ OnlyChanges [.regs, .pc] s t ∧ t.out = .quiet

/-- A step from `t` raises the fetch error at its `pc` (R143). -/
def FetchFails (t : State) : Prop := ∃ u, step t = .next u ∧ Raises (.outOfBounds .fetch t.pc.toNat) t u

/-- The instruction completes by skipping the next two bytes exactly when `c`, and does nothing else; a target at or
beyond 0xFFF fails at the next fetch (R173). -/
def SkipsWhen (i : Instr) (c : Prop) (s : State) : Prop :=
  ∃ t, exec i s = .next t ∧ (c → t.pc = s.pc + 4) ∧ (¬ c → t.pc = s.pc + 2) ∧ OnlyChanges [.pc] s t ∧
    t.out = .quiet ∧ (s.Running → 0xFFF ≤ t.pc.toNat → FetchFails t)

/-- The instruction completes by writing the number `r` to `I` and moving on, and does nothing else. -/
def SetsIndex (i : Instr) (r : Nat) (s : State) : Prop :=
  ∃ t, exec i s = .next t ∧ t.i.toNat = r ∧ t.pc = s.pc + 2 ∧ OnlyChanges [.index, .pc] s t ∧ t.out = .quiet

/-- Bit 7 − c of the sprite's byte r is set and its pixel is (px, py), for a sprite of `n` bytes at `I` drawn at
`V[x]`, `V[y]` (R271). -/
def Covers (s : State) (x y : RegIx) (n px py : Nat) : Prop :=
  ∃ r c, r < n ∧ c < 8 ∧ (s.byteAt (s.i.toNat + r)).toNat / 2 ^ (7 - c) % 2 = 1 ∧
    px = ((s.getV x).toNat + c) % 64 ∧ py = ((s.getV y).toNat + r) % 32

/-- Pixel (px, py), `FB[py*64+px]` (R43). -/
def State.pixel (s : State) (px py : Nat) : Bool := getPixel s.fb (py * 64 + px)

/-! ### Reset -/

/-- The state table of rule R50. -/
def IsResetState (s : State) : Prop :=
  (∀ a, a < 4096 → s.byteAt a = if a < 80 then Config.font.getD a 0 else 0) ∧ (∀ r, s.getV r = 0) ∧ s.i = 0 ∧
    s.pc = 0x200 ∧ (∀ k, k < 16 → s.entry k = 0) ∧ s.sp = 0 ∧ s.dt = 0 ∧ s.st = 0 ∧
    (∀ px py, px < 64 → py < 32 → s.pixel px py = false) ∧ (∀ k : KeyIx, s.keys[k] = false) ∧ s.wait = .idle ∧
    s.fault = none

/-! ### The invariant -/

/-- The latched error records what rule R361 says of it, in the state it left unchanged. -/
def State.Records (s : State) : FatalError → Prop
  | .outOfBounds .fetch a => a = s.pc.toNat ∧ 0xFFF ≤ a
  | .outOfBounds .data a => a = 0x1000
  | .stackOverflow p => p = s.pc ∧ s.sp.val = 16
  | .stackUnderflow p => p = s.pc ∧ s.sp.val = 0
  | .invalidKeyIndex b => 0xF < b.toNat ∧ ∃ x, s.getV x = b

/-- What holds of every reachable state: memory in canonical form; `I ≤ 0xFFF` (R36); `pc ≤ 0x10FE` and every held
return address at most 0x1000 (R38); a pending wait stands at a word that was fetched and excludes a fault; a latched
fault records what rule R361 says. -/
structure State.Inv (s : State) : Prop where
  memory : s.mem.wf
  index : s.i.toNat ≤ 0xFFF
  pc : s.pc.toNat ≤ 0x10FE
  returns : ∀ k, k < s.sp.val → (s.entry k).toNat ≤ 0x1000
  waitAddress : s.wait ≠ .idle → s.pc.toNat < 0xFFF
  waitExcludesFault : s.wait = .idle ∨ s.fault = none
  records : ∀ e, s.fault = some e → s.Records e

/-! ### Two states that differ only above the stack pointer -/

/-- The states are the same but for stack entries at index ≥ `SP` (R40). -/
def SameBelowSP (s t : State) : Prop :=
  t = { s with stk := t.stk } ∧ ∀ k, k < s.sp.val → t.entry k = s.entry k

end Sys2Proof.Machine
end

