-- ==== Sys2Proof/Certificates/Slice0/Obligations.lean ====
section
/-! DEFINITION. The statements for the provers. A docstring that begins with rule numbers formalises those rules whole;
one that begins 'Derived from' rests on the sections it names, and says which decision of the spec's own it takes. -/

open Sys2Proof Sys2Proof.Machine

/-! ### Reset -/

/-- R50: `initialize()` leaves every piece of state at the value of the state table, whatever the state before, and
the model's reset state is that state. -/
def Obligations.ResetMatchesTheStateTable : Prop :=
  IsResetState State.reset ∧ ∀ s : State, (s.perform .initAll).1 = .done ∧ IsResetState (s.perform .initAll).2

/-- Derived from 10_state.md ("The spec takes the following table", the rule R31): the 16 glyphs, five bytes each. The
byte values are the spec's own choice from general knowledge (decision D25; log entry 7). -/
def Obligations.FontIsTheGlyphTable : Prop :=
  (List.range 16).map (fun d => (List.range 5).map fun k => (State.reset.byteAt (5 * d + k)).toNat) =
    [[0xF0, 0x90, 0x90, 0x90, 0xF0], [0x20, 0x60, 0x20, 0x20, 0x70], [0xF0, 0x10, 0xF0, 0x80, 0xF0],
      [0xF0, 0x10, 0xF0, 0x10, 0xF0]] ++
    [[0x90, 0x90, 0xF0, 0x10, 0x10], [0xF0, 0x80, 0xF0, 0x10, 0xF0], [0xF0, 0x80, 0xF0, 0x90, 0xF0],
      [0xF0, 0x10, 0x20, 0x40, 0x40]] ++
    [[0xF0, 0x90, 0xF0, 0x90, 0xF0], [0xF0, 0x90, 0xF0, 0x10, 0xF0], [0xF0, 0x90, 0xF0, 0x90, 0x90],
      [0xE0, 0x90, 0xE0, 0x90, 0xE0]] ++
    [[0xF0, 0x80, 0x80, 0x80, 0xF0], [0xE0, 0x90, 0x90, 0x90, 0xE0], [0xF0, 0x80, 0xF0, 0x80, 0xF0],
      [0xF0, 0x80, 0xF0, 0x80, 0x80]]

/-- The invariant holds after reset (derived from R36, R38, R45, R46, R50). -/
def Obligations.ResetMeetsTheInvariant : Prop := State.reset.Inv

/-! ### Invariants of every step and every run -/

/-- Derived from R36, R38, R241, R361, R365: from every state that meets the invariant a step gives one that does. -/
def Obligations.StepKeepsTheInvariant : Prop :=
  ∀ s t : State, s.Inv → step s = .next t → t.Inv

/-- Derived from R339 and the rules of StepKeepsTheInvariant: every sequence of host calls, steps among them, keeps
the invariant. -/
def Obligations.EveryRunKeepsTheInvariant : Prop :=
  ∀ (s : State) (calls : List HostCall), s.Inv → (s.performAll calls).Inv

/-- Derived from R140, R148, R365: a step always answers a next state, whatever the state; no fatal error and no
unknown word stops the model. -/
def Obligations.StepAlwaysAnswersANextState : Prop := ∀ s : State, ∃ t, step s = .next t

/-! ### Encoding -/

/-- Derived from R102, R110, R111: decoding the word of a well-formed instruction gives the instruction back. -/
def Obligations.DecodeOfEncodeIsTheInstruction : Prop :=
  ∀ i : Instr, i.wf = true → decode (encode i) = .instr i

/-- Derived from R101, R104, R110: a word that decodes is the word of the instruction it decodes to, which is
well-formed: no bit of a word is dropped. -/
def Obligations.EncodeOfDecodeIsTheWord : Prop :=
  ∀ (w : Word) (i : Instr), decode w = .instr i → encode i = w ∧ i.wf = true

/-- Derived from 30_encoding.md (the rule R110; its `8xy_` low nibbles are decision D7): a word selects a row of the opcode
map when `(w & mask) == match`; the decoder gives that row's instruction, and rejects every word that selects none; no
word selects two rows. -/
def Obligations.DecodeFollowsTheOpcodeMap : Prop :=
  ∀ w : Word,
    (∀ r ∈ opcodeMap, r.selects w = true → ∃ i, decode w = .instr i ∧ i.rowNumber = r.row) ∧
    ((∀ r ∈ opcodeMap, r.selects w = false) → decode w = .reject (.unknownOpcode w)) ∧
    (∀ r ∈ opcodeMap, ∀ q ∈ opcodeMap, r.selects w = true → q.selects w = true → r = q)

/-- Derived from R101, R110 (a sanity check on written-out words, one for each format and family). -/
def Obligations.WrittenOutWordsDecode : Prop :=
  StandsFor 0x00E0 .cls ∧ StandsFor 0x1228 (.jp 0x228) ∧ StandsFor 0x8AB4 (.addReg 0xA 0xB) ∧
    StandsFor 0xD125 (.drw 1 2 5) ∧ StandsFor 0xF30A (.ldVxK 3) ∧ StandsFor 0xE5A1 (.sknp 5) ∧
    StandsFor 0xC30F (.rnd 3 0x0F) ∧ StandsFor 0xF265 (.loadRegs 2)

/-- Derived from 30_encoding.md (the rule R112; the `8xy_` low nibbles in it are the spec's decision D7): the unknown
words are exactly those of the list. -/
def Obligations.UnknownWordsAreThoseOfTheList : Prop :=
  ∀ w : Word, decode w = .reject (.unknownOpcode w) ↔ UnknownWord w

/-- R148: a step that fetches a word that does not decode moves `pc` on by 2, reports the word, is not halted and
changes nothing else. -/
def Obligations.UnknownWordsAreReportedAndPassed : Prop :=
  ∀ (s : State) (r : Reject), s.Fetches → decode s.fetchWord = .reject r →
    ∃ t, step s = .next t ∧ t.pc = s.pc + 2 ∧ OnlyChanges [.pc] s t ∧
      t.out = ⟨false, false, false, .unknownOpcode s.fetchWord⟩

/-! ### The step -/

/-- Derived from R147, R150: when the bytes at `pc` decode to an instruction, the step is that instruction's meaning
at the same state: `pc` still holds the instruction's own address. -/
def Obligations.StepRunsTheDecodedInstruction : Prop :=
  ∀ (s : State) (i : Instr), s.Runs i → step s = exec i s

/-- R72: the word at `pc` is big-endian. -/
def Obligations.FetchedWordIsBigEndian : Prop :=
  ∀ s : State, s.fetchWord.toNat =
    (s.byteAt s.pc.toNat).toNat * 256 + (s.byteAt (s.pc.toNat + 1)).toNat

/-- Derived from 40_step_cycle.md (the rule R141; decision D3): under a latched fault a step changes no state and reports
the fault. -/
def Obligations.LatchedFaultChangesNothing : Prop :=
  ∀ (s : State) (e : FatalError), s.fault = some e →
    ∃ t, step s = .next t ∧ OnlyChanges [] s t ∧ t.out = ⟨false, true, false, .fatal e⟩

/-- Derived from 40_step_cycle.md (the rule R142; decision D18): a wait with no key changes no state and reports waiting; a
wait with key k completes the `Fx0A`. -/
def Obligations.PendingWaitStepDoesNotFetch : Prop :=
  ∀ (s : State) (x : RegIx), s.fault = none →
    (s.wait = .waiting x none →
      ∃ t, step s = .next t ∧ OnlyChanges [] s t ∧ t.out = ⟨false, false, true, .noError⟩) ∧
    (∀ k : KeyIx, s.wait = .waiting x (some k) →
      ∃ t, step s = .next t ∧ (t.getV x).toNat = k.val ∧ RegsSameBut [x] s t ∧ t.pc = s.pc + 2 ∧ t.wait = .idle ∧
        OnlyChanges [.regs, .pc, .wait] s t ∧ t.out = .quiet)

/-- R143: a fetch with `pc ≥ 0xFFF` raises `OutOfBounds(fetch, pc)`. -/
def Obligations.FetchBeyondMemoryIsFatal : Prop :=
  ∀ s : State, s.Running → 0xFFF ≤ s.pc.toNat →
    ∃ t, step s = .next t ∧ Raises (.outOfBounds .fetch s.pc.toNat) s t

/-- Derived from 46_host_interface.md (the rule R331; decision D21): when each field of the outcome of a step is set. -/
def Obligations.OutcomeFieldsSayWhatHappened : Prop :=
  ∀ s t : State, step s = .next t →
    (t.out.halted = true ↔ t.fault ≠ none) ∧
    (∀ e, t.out.error = .fatal e ↔ t.fault = some e) ∧
    (∀ w, t.out.error = .unknownOpcode w ↔ s.Fetches ∧ UnknownWord w ∧ s.fetchWord = w) ∧
    (t.out.redraw = true ↔ t.fault = none ∧ (s.Runs .cls ∨ ∃ x y n, s.Runs (.drw x y n))) ∧
    (t.out.waiting = true ↔ s.fault = none ∧ ((∃ x, s.wait = .waiting x none) ∨ ∃ x, s.Runs (.ldVxK x))) ∧
    ¬ (t.out.redraw = true ∧ t.out.waiting = true) ∧
    (t.out.error ≠ .noError → t.out.redraw = false ∧ t.out.waiting = false)

/-! ### Fatal errors -/

/-- Derived from 60_exceptions.md (the rules R365, R147; decisions D2, D3): a step that latches a fault changes nothing else
and reports it. -/
def Obligations.FatalErrorsArePrecise : Prop :=
  ∀ (s t : State) (e : FatalError), s.fault = none → step s = .next t → t.fault = some e → Raises e s t

/-- Derived from 60_exceptions.md (the rule R367; decision D3): while no `initialize()` is called, a latched fault stays
as it is, every further step reports it, and all but what the other host calls write is unchanged; `initialize()`
clears it. -/
def Obligations.FaultStaysUntilReset : Prop :=
  (∀ (s : State) (e : FatalError) (calls : List HostCall), s.fault = some e → HostCall.initAll ∉ calls →
      (s.performAll calls).fault = some e ∧
        OnlyChanges [.mem, .dt, .st, .keys, .wait] s (s.performAll calls) ∧
        ∃ t, step (s.performAll calls) = .next t ∧ OnlyChanges [] (s.performAll calls) t ∧
          t.out = ⟨false, true, false, .fatal e⟩) ∧
    ∀ s : State, (s.perform .initAll).2.fault = none

/-- Derived from 60_exceptions.md (the rule R361; the codes are the spec's decision D21): the code of each step error. -/
def Obligations.ErrorCodesAreThoseOfTheTable : Prop :=
  StepError.noError.code = 0 ∧ (∀ k a, (StepError.fatal (.outOfBounds k a)).code = 1) ∧
    (∀ p, (StepError.fatal (.stackOverflow p)).code = 2) ∧ (∀ p, (StepError.fatal (.stackUnderflow p)).code = 3) ∧
    (∀ w, (StepError.unknownOpcode w).code = 4) ∧ ∀ b, (StepError.fatal (.invalidKeyIndex b)).code = 5

/-- Derived from 43_index_memory.md (the rules R241, R75; decision D6): an instruction that accesses memory at `I` raises
`OutOfBounds(data, a)` before any access when some address it accesses is ≥ 4096, `a` the lowest such address, which is
0x1000 when `I ≤ 0xFFF`; otherwise it raises nothing. -/
def Obligations.DataAccessBeyondMemoryIsFatal : Prop :=
  ∀ (s : State) (i : Instr) (len : Nat),
    ((∃ x y, i = .drw x y len) ∨ (∃ x, i = .ldBVx x ∧ len = 3) ∨
      ∃ x, (i = .storeRegs x ∨ i = .loadRegs x) ∧ len = x.val + 1) →
    (∀ a, s.i.toNat ≤ a → a < s.i.toNat + len → 4096 ≤ a →
        (∀ b, s.i.toNat ≤ b → b < s.i.toNat + len → 4096 ≤ b → a ≤ b) →
        (∃ t, exec i s = .next t ∧ Raises (.outOfBounds .data a) s t) ∧ (s.i.toNat ≤ 0xFFF → a = 0x1000)) ∧
    ((∀ a, s.i.toNat ≤ a → a < s.i.toNat + len → a < 4096) →
        ∃ t, exec i s = .next t ∧ t.fault = s.fault ∧ t.pc = s.pc + 2)

/-! ### Control flow -/

/-- R171: `1nnn`, and where the target is 0xFFF the next fetch fails. -/
def Obligations.JumpSetsThePc : Prop :=
  ∀ (s : State) (nnn : Nat), nnn < 4096 →
    StandsFor (0x1000 + nnn) (.jp (BitVec.ofNat 16 nnn)) ∧
      ∃ t, exec (.jp (BitVec.ofNat 16 nnn)) s = .next t ∧ t.pc.toNat = nnn ∧ OnlyChanges [.pc] s t ∧
        t.out = .quiet ∧ (s.Running → nnn = 0xFFF → FetchFails t)

/-- Derived from 41_flow.md (`Bnnn`, the rule R178; that the sum is not reduced is the spec's decision D4): the target
is `nnn + V[0]`, and one at or beyond 0xFFF fails at the next fetch. -/
def Obligations.JumpWithOffsetAddsV0 : Prop :=
  ∀ (s : State) (nnn : Nat), nnn < 4096 →
    StandsFor (0xB000 + nnn) (.jpV0 (BitVec.ofNat 16 nnn)) ∧
      ∃ t, exec (.jpV0 (BitVec.ofNat 16 nnn)) s = .next t ∧ t.pc.toNat = nnn + (s.getV 0).toNat ∧
        OnlyChanges [.pc] s t ∧ t.out = .quiet ∧ (s.Running → 0xFFF ≤ t.pc.toNat → FetchFails t)

/-- Derived from 41_flow.md (`2nnn`, the rule R172; the depth 16 is the spec's decision D1, log entry 8): the call pushes
the address of the next instruction, or raises `StackOverflow` when 16 entries are held. -/
def Obligations.CallPushesTheReturnAddress : Prop :=
  ∀ (s : State) (nnn : Nat), nnn < 4096 →
    StandsFor (0x2000 + nnn) (.call (BitVec.ofNat 16 nnn)) ∧
    (s.sp.val < 16 →
      ∃ t, exec (.call (BitVec.ofNat 16 nnn)) s = .next t ∧ t.pc.toNat = nnn ∧ t.sp.val = s.sp.val + 1 ∧
        t.entry s.sp.val = s.pc + 2 ∧ (∀ k, k ≠ s.sp.val → t.entry k = s.entry k) ∧
        OnlyChanges [.pc, .stack] s t ∧ t.out = .quiet) ∧
    (s.sp.val = 16 →
      ∃ t, exec (.call (BitVec.ofNat 16 nnn)) s = .next t ∧ Raises (.stackOverflow s.pc) s t)

/-- Derived from 41_flow.md (`00EE`, the rule R170; that an empty stack is fatal is the spec's decision D2): the return
pops into `pc`, where an address at or beyond 0xFFF fails at the next fetch, or raises `StackUnderflow`. -/
def Obligations.ReturnPopsIntoThePc : Prop :=
  StandsFor 0x00EE .ret ∧ ∀ s : State,
    (0 < s.sp.val →
      ∃ t, exec .ret s = .next t ∧ t.pc = s.entry (s.sp.val - 1) ∧ t.sp.val = s.sp.val - 1 ∧
        (∀ k, t.entry k = s.entry k) ∧ OnlyChanges [.pc, .stack] s t ∧ t.out = .quiet ∧
        (s.Running → 0xFFF ≤ t.pc.toNat → FetchFails t)) ∧
    (s.sp.val = 0 → ∃ t, exec .ret s = .next t ∧ Raises (.stackUnderflow s.pc) s t)

/-- Derived from R170, R172, conflict C2: a return from any state that has the stack a call left goes to the
instruction after the call, with the stack as it was before the call. -/
def Obligations.ReturnUndoesCall : Prop :=
  ∀ (s : State) (nnn : Word), s.sp.val < 16 →
    ∃ t, exec (.call nnn) s = .next t ∧ ∀ u : State, u.sp = t.sp → u.stk = t.stk →
      ∃ w, exec .ret u = .next w ∧ w.pc = s.pc + 2 ∧ w.sp = s.sp ∧ ∀ k, k < s.sp.val → w.entry k = s.entry k

/-- R173 to R177: the skips on a comparison of registers and literals; `5xyN` and `9xyN` with N ≠ 0 are unknown. -/
def Obligations.ComparisonsSkipTwoBytes : Prop :=
  ∀ (s : State) (x y : RegIx) (kk : Byte),
    (StandsFor (0x3000 + 256 * x.val + kk.toNat) (.seImm x kk) ∧ SkipsWhen (.seImm x kk) (s.getV x = kk) s) ∧
    (StandsFor (0x4000 + 256 * x.val + kk.toNat) (.sneImm x kk) ∧ SkipsWhen (.sneImm x kk) (s.getV x ≠ kk) s) ∧
    (StandsFor (0x5000 + 256 * x.val + 16 * y.val) (.seReg x y) ∧
      SkipsWhen (.seReg x y) (s.getV x = s.getV y) s) ∧
    (StandsFor (0x9000 + 256 * x.val + 16 * y.val) (.sneReg x y) ∧
      SkipsWhen (.sneReg x y) (s.getV x ≠ s.getV y) s) ∧
    ∀ n, 0 < n → n < 16 →
      StandsForNone (0x5000 + 256 * x.val + 16 * y.val + n) ∧ StandsForNone (0x9000 + 256 * x.val + 16 * y.val + n)

/-- Derived from 40_step_cycle.md (the rule R145): every instruction but the control transfers and the waiting `Fx0A` ends at
`npc`, or a skip past the next two bytes, unless it raises a fatal error. -/
def Obligations.DefaultAdvanceIsTwo : Prop :=
  ∀ (i : Instr) (s t : State), s.fault = none → exec i s = .next t → t.fault = none →
    i ≠ .ret → (∀ a, i ≠ .jp a) → (∀ a, i ≠ .call a) → (∀ a, i ≠ .jpV0 a) → (∀ x, i ≠ .ldVxK x) →
    t.pc = s.pc + 2 ∨
      (t.pc = s.pc + 4 ∧
        ((∃ x kk, i = .seImm x kk ∨ i = .sneImm x kk) ∨ (∃ x y, i = .seReg x y ∨ i = .sneReg x y) ∨
          ∃ x, i = .skp x ∨ i = .sknp x))

/-! ### Register loads and the ALU -/

/-- R200, R201: `6xkk` and `7xkk` (no flag, modulo 256). -/
def Obligations.LiteralsAreLoadedAndAdded : Prop :=
  ∀ (s : State) (x : RegIx) (kk : Byte),
    (StandsFor (0x6000 + 256 * x.val + kk.toNat) (.ldImm x kk) ∧ SetsRegister (.ldImm x kk) x kk.toNat s) ∧
    (StandsFor (0x7000 + 256 * x.val + kk.toNat) (.addImm x kk) ∧
      SetsRegister (.addImm x kk) x (((s.getV x).toNat + kk.toNat) % 256) s)

/-- Derived from 42_alu.md (`8xy0` to `8xy3`, the rules R202 to R205; the low nibbles are the spec's decision D7 and
that no flag is written is D10): a copy, and the logic operations bit by bit, with `VF` not written unless it is
`V[x]`. -/
def Obligations.CopyAndLogicSetNoFlag : Prop :=
  ∀ (s : State) (x y : RegIx),
    (StandsFor (0x8000 + 256 * x.val + 16 * y.val) (.ldReg x y) ∧
      SetsRegister (.ldReg x y) x (s.getV y).toNat s) ∧
    (StandsFor (0x8001 + 256 * x.val + 16 * y.val) (.orReg x y) ∧
      ∃ t, exec (.orReg x y) s = .next t ∧
        (∀ k, (t.getV x).getLsbD k = ((s.getV x).getLsbD k || (s.getV y).getLsbD k)) ∧ RegsSameBut [x] s t ∧
        t.pc = s.pc + 2 ∧ OnlyChanges [.regs, .pc] s t ∧ t.out = .quiet) ∧
    (StandsFor (0x8002 + 256 * x.val + 16 * y.val) (.andReg x y) ∧
      ∃ t, exec (.andReg x y) s = .next t ∧
        (∀ k, (t.getV x).getLsbD k = ((s.getV x).getLsbD k && (s.getV y).getLsbD k)) ∧ RegsSameBut [x] s t ∧
        t.pc = s.pc + 2 ∧ OnlyChanges [.regs, .pc] s t ∧ t.out = .quiet) ∧
    (StandsFor (0x8003 + 256 * x.val + 16 * y.val) (.xorReg x y) ∧
      ∃ t, exec (.xorReg x y) s = .next t ∧
        (∀ k, (t.getV x).getLsbD k = Bool.xor ((s.getV x).getLsbD k) ((s.getV y).getLsbD k)) ∧
        RegsSameBut [x] s t ∧ t.pc = s.pc + 2 ∧ OnlyChanges [.regs, .pc] s t ∧ t.out = .quiet)

/-- Derived from 42_alu.md (`8xy4`, the rules R207, R206; the low nibble is decision D7, the flag last is D11): the low 8
bits of the sum and the carry. -/
def Obligations.AddSetsSumAndCarry : Prop :=
  ∀ (s : State) (x y : RegIx),
    StandsFor (0x8004 + 256 * x.val + 16 * y.val) (.addReg x y) ∧
    SetsRegisterAndFlag (.addReg x y) x (((s.getV x).toNat + (s.getV y).toNat) % 256)
      (if (s.getV x).toNat + (s.getV y).toNat > 255 then 1 else 0) s

/-- Derived from 42_alu.md (`8xy5`, `8xy7`, the rules R208, R210, R206; that the flag is 1 when no borrow occurs is the
spec's decision D8, log entry 9): the difference modulo 256 and the no-borrow flag, the flag last. -/
def Obligations.SubtractionsSetDifferenceAndNoBorrow : Prop :=
  ∀ (s : State) (x y : RegIx),
    (StandsFor (0x8005 + 256 * x.val + 16 * y.val) (.subReg x y) ∧
      SetsRegisterAndFlag (.subReg x y) x ((256 + (s.getV x).toNat - (s.getV y).toNat) % 256)
        (if (s.getV x).toNat ≥ (s.getV y).toNat then 1 else 0) s) ∧
    (StandsFor (0x8007 + 256 * x.val + 16 * y.val) (.subnReg x y) ∧
      SetsRegisterAndFlag (.subnReg x y) x ((256 + (s.getV y).toNat - (s.getV x).toNat) % 256)
        (if (s.getV y).toNat ≥ (s.getV x).toNat then 1 else 0) s)

/-- Derived from 42_alu.md (`8xy6`, `8xyE`, the rules R209, R211, R206; that `y` is ignored is the spec's decision D9, log
entry 9): `V[x]` is shifted by one whatever `y` is, the bit shifted out last into `VF`. -/
def Obligations.ShiftsMoveOneBitIntoVF : Prop :=
  ∀ (s : State) (x y : RegIx),
    (StandsFor (0x8006 + 256 * x.val + 16 * y.val) (.shr x y) ∧
      SetsRegisterAndFlag (.shr x y) x ((s.getV x).toNat / 2) ((s.getV x).toNat % 2) s) ∧
    (StandsFor (0x800E + 256 * x.val + 16 * y.val) (.shl x y) ∧
      SetsRegisterAndFlag (.shl x y) x (2 * (s.getV x).toNat % 256) ((s.getV x).toNat / 128) s)

/-- Derived from 42_alu.md (`Cxkk`, the rule R212; decision D19): it writes `RAND & kk`, for every byte `RAND` may be; the
meaning is that at the model's free value (DESIGN CHOICE, log entry 1). -/
def Obligations.RandomByteIsMasked : Prop :=
  ∀ (s : State) (x : RegIx) (kk : Byte),
    StandsFor (0xC000 + 256 * x.val + kk.toNat) (.rnd x kk) ∧
    exec (.rnd x kk) s = .next (rndWith (Config.randomByte s.draws) x kk s) ∧
    ∀ rand : Byte,
      (∀ k, ((rndWith rand x kk s).getV x).getLsbD k = (rand.getLsbD k && kk.getLsbD k)) ∧
      RegsSameBut [x] s (rndWith rand x kk s) ∧ (rndWith rand x kk s).pc = s.pc + 2 ∧
      (rndWith rand x kk s).draws = s.draws + 1 ∧
      OnlyChanges [.regs, .pc, .draws] s (rndWith rand x kk s) ∧ (rndWith rand x kk s).out = .quiet

/-- Derived from 40_step_cycle.md (the rule R151; decision D19): only `Cxkk` reads `RAND`: with another count of drawn
bytes (the model's own field, log entry 1) every other step goes to the same state. -/
def Obligations.OnlyRndReadsTheRandomByte : Prop :=
  ∀ (s t : State) (d : Nat), step s = .next t → (∀ x kk, ¬ s.Runs (.rnd x kk)) →
    step { s with draws := d } = .next { t with draws := d }

/-- Derived from 10_state.md (the rule R34): which instructions can change `VF`: the six that write it as a flag, and those
whose named destination it is. -/
def Obligations.VfChangesOnlyAsFlagOrDestination : Prop :=
  ∀ (i : Instr) (s t : State), exec i s = .next t → t.getV VF ≠ s.getV VF →
    (∃ x y, i = .addReg x y ∨ i = .subReg x y ∨ i = .shr x y ∨ i = .subnReg x y ∨ i = .shl x y) ∨
    (∃ x y n, i = .drw x y n) ∨
    (∃ kk, i = .ldImm VF kk ∨ i = .addImm VF kk ∨ i = .rnd VF kk) ∨
    (∃ y, i = .ldReg VF y ∨ i = .orReg VF y ∨ i = .andReg VF y ∨ i = .xorReg VF y) ∨
    i = .ldVxDT VF ∨ i = .loadRegs VF

/-! ### The index register and memory blocks -/

/-- R240, R242: `Annn`, and `Fx1E` modulo 4096. -/
def Obligations.IndexRegisterIsSet : Prop :=
  ∀ (s : State) (nnn : Nat) (x : RegIx), nnn < 4096 →
    (StandsFor (0xA000 + nnn) (.ldI (BitVec.ofNat 16 nnn)) ∧ SetsIndex (.ldI (BitVec.ofNat 16 nnn)) nnn s) ∧
    (StandsFor (0xF01E + 256 * x.val) (.addIVx x) ∧
      SetsIndex (.addIVx x) ((s.i.toNat + (s.getV x).toNat) % 4096) s)

/-- Derived from 43_index_memory.md (`Fx29`, the rule R244; values above 0xF are the spec's decision D17): `I` becomes
five times the register, which for a digit is where its glyph stands after reset. -/
def Obligations.GlyphAddressIsFiveTimesTheDigit : Prop :=
  ∀ (s : State) (x : RegIx), StandsFor (0xF029 + 256 * x.val) (.ldFVx x) ∧
    SetsIndex (.ldFVx x) ((s.getV x).toNat * 5) s

/-- Derived from 43_index_memory.md (`Fx33`, the rule R245; hundreds first is the spec's decision D13, log entry 10): the
decimal digits are stored, or `OutOfBounds(data, 0x1000)` is raised; `I` is unchanged. -/
def Obligations.DecimalDigitsAreStored : Prop :=
  ∀ (s : State) (x : RegIx),
    StandsFor (0xF033 + 256 * x.val) (.ldBVx x) ∧
    (s.i.toNat < 0xFFE →
      ∃ t, exec (.ldBVx x) s = .next t ∧ (t.byteAt s.i.toNat).toNat = (s.getV x).toNat / 100 ∧
        (t.byteAt (s.i.toNat + 1)).toNat = (s.getV x).toNat / 10 % 10 ∧
        (t.byteAt (s.i.toNat + 2)).toNat = (s.getV x).toNat % 10 ∧ MemSameOutside s.i.toNat 3 s t ∧
        t.pc = s.pc + 2 ∧ OnlyChanges [.mem, .pc] s t ∧ t.out = .quiet) ∧
    (0xFFE ≤ s.i.toNat → s.i.toNat ≤ 0xFFF →
      ∃ t, exec (.ldBVx x) s = .next t ∧ Raises (.outOfBounds .data 0x1000) s t)

/-- Derived from 43_index_memory.md (`Fx55`, the rule R246; decisions D12, D6): `V[0]` to `V[x]` are stored, or
`OutOfBounds(data, 0x1000)` is raised; `I` is unchanged. -/
def Obligations.RegistersAreStored : Prop :=
  ∀ (s : State) (x : RegIx),
    StandsFor (0xF055 + 256 * x.val) (.storeRegs x) ∧
    (s.i.toNat + x.val < 4096 →
      ∃ t, exec (.storeRegs x) s = .next t ∧ (∀ j : RegIx, j ≤ x → t.byteAt (s.i.toNat + j.val) = s.getV j) ∧
        MemSameOutside s.i.toNat (x.val + 1) s t ∧ t.pc = s.pc + 2 ∧ OnlyChanges [.mem, .pc] s t ∧
        t.out = .quiet) ∧
    (4096 ≤ s.i.toNat + x.val → s.i.toNat ≤ 0xFFF →
      ∃ t, exec (.storeRegs x) s = .next t ∧ Raises (.outOfBounds .data 0x1000) s t)

/-- Derived from 43_index_memory.md (`Fx65`, the rule R247; decisions D12, D6): `V[0]` to `V[x]` and no other register are
loaded, or `OutOfBounds(data, 0x1000)` is raised; `I` is unchanged. -/
def Obligations.RegistersAreLoaded : Prop :=
  ∀ (s : State) (x : RegIx),
    StandsFor (0xF065 + 256 * x.val) (.loadRegs x) ∧
    (s.i.toNat + x.val < 4096 →
      ∃ t, exec (.loadRegs x) s = .next t ∧ (∀ j : RegIx, j ≤ x → t.getV j = s.byteAt (s.i.toNat + j.val)) ∧
        (∀ j : RegIx, x < j → t.getV j = s.getV j) ∧ t.pc = s.pc + 2 ∧ OnlyChanges [.regs, .pc] s t ∧
        t.out = .quiet) ∧
    (4096 ≤ s.i.toNat + x.val → s.i.toNat ≤ 0xFFF →
      ∃ t, exec (.loadRegs x) s = .next t ∧ Raises (.outOfBounds .data 0x1000) s t)

/-- Derived from 43_index_memory.md (the rules R248, R36): the only instructions that change `I`. -/
def Obligations.IndexRegisterHasThreeWriters : Prop :=
  ∀ (i : Instr) (s t : State), exec i s = .next t → t.i ≠ s.i →
    (∃ nnn, i = .ldI nnn) ∨ ∃ x, i = .addIVx x ∨ i = .ldFVx x

/-- Derived from 20_memory.md (the rules R71, R76): the only instructions that change a byte of memory, and which bytes. -/
def Obligations.MemoryHasTwoWriters : Prop :=
  ∀ (i : Instr) (s t : State) (a : Nat), exec i s = .next t → t.byteAt a ≠ s.byteAt a →
    a < 4096 ∧ s.i.toNat ≤ a ∧
      ∃ x : RegIx, (i = .ldBVx x ∧ a < s.i.toNat + 3) ∨ (i = .storeRegs x ∧ a ≤ s.i.toNat + x.val)

/-- Derived from 20_memory.md (the rules R73, R82): a word fetched where `Fx55` has just stored is made of the stored
registers, big-endian. -/
def Obligations.FetchSeesTheStore : Prop :=
  ∀ (s : State) (x j k : RegIx), s.i.toNat + x.val < 4096 → k.val = j.val + 1 → k ≤ x →
    ∃ t, exec (.storeRegs x) s = .next t ∧ ∀ u : State, u.mem = t.mem → u.pc.toNat = s.i.toNat + j.val →
      u.fetchWord.toNat = (s.getV j).toNat * 256 + (s.getV k).toNat

/-! ### The framebuffer -/

/-- R270: `00E0` turns every pixel off and signals redraw. -/
def Obligations.ClearTurnsEveryPixelOff : Prop :=
  StandsFor 0x00E0 .cls ∧ ∀ s : State,
    ∃ t, exec .cls s = .next t ∧ (∀ px py, px < 64 → py < 32 → t.pixel px py = false) ∧ t.pc = s.pc + 2 ∧
      OnlyChanges [.fb, .pc] s t ∧ t.out = ⟨true, false, false, .noError⟩

/-- Derived from 44_display.md (`Dxyn`, the rules R271, R272; that the leftmost pixel is the top bit is the spec's decision
D14, the coordinates before `VF` is D15): it flips exactly the pixels its set bits cover, each coordinate wrapped; `VF`
is 1 exactly when one of them was on; redraw is signalled. -/
def Obligations.DrawFlipsTheCoveredPixels : Prop :=
  ∀ (s : State) (x y : RegIx) (n : Nat), n < 16 → n = 0 ∨ s.i.toNat + n ≤ 4096 →
    StandsFor (0xD000 + 256 * x.val + 16 * y.val + n) (.drw x y n) ∧
    ∃ t, exec (.drw x y n) s = .next t ∧
      (∀ px py, px < 64 → py < 32 → (t.pixel px py ≠ s.pixel px py ↔ Covers s x y n px py)) ∧
      ((∃ px py, px < 64 ∧ py < 32 ∧ Covers s x y n px py ∧ s.pixel px py = true) → t.getV VF = 1) ∧
      ((¬ ∃ px py, px < 64 ∧ py < 32 ∧ Covers s x y n px py ∧ s.pixel px py = true) → t.getV VF = 0) ∧
      RegsSameBut [VF] s t ∧ t.pc = s.pc + 2 ∧ OnlyChanges [.regs, .fb, .pc] s t ∧
      t.out = ⟨true, false, false, .noError⟩

/-- Derived from 44_display.md (the rules R271, R272, R273) and conflict C7: no pixel twice in one draw; the second of two
draws at the same coordinates restores every pixel, and collides exactly on the pixels the first turned on. (R273's
"exactly when the sprite has at least one set bit" holds where the covered pixels were off; log entry 14.) -/
def Obligations.DrawingTwiceRestoresThePixels : Prop :=
  (∀ (cx cy : Byte) (r c r' c' : Nat), r < 16 → r' < 16 → c < 8 → c' < 8 →
      pixelIndex cx cy r c = pixelIndex cx cy r' c' → r = r' ∧ c = c') ∧
    ∀ (s : State) (x y : RegIx) (n : Nat), n < 16 → n = 0 ∨ s.i.toNat + n ≤ 4096 →
      ∃ t, exec (.drw x y n) s = .next t ∧ (t.getV x = s.getV x → t.getV y = s.getV y →
        ∃ u, exec (.drw x y n) t = .next u ∧
          (∀ px py, px < 64 → py < 32 → u.pixel px py = s.pixel px py) ∧
          ((∃ px py, px < 64 ∧ py < 32 ∧ Covers s x y n px py ∧ s.pixel px py = false) → u.getV VF = 1) ∧
          ((¬ ∃ px py, px < 64 ∧ py < 32 ∧ Covers s x y n px py ∧ s.pixel px py = false) → u.getV VF = 0))

/-- Derived from 10_state.md (the rule R43): the framebuffer is changed by `00E0` and `Dxyn` only. -/
def Obligations.FramebufferHasTwoWriters : Prop :=
  ∀ (i : Instr) (s t : State), exec i s = .next t → t.fb ≠ s.fb → i = .cls ∨ ∃ x y n, i = .drw x y n

/-! ### Keys, the wait and the timers -/

/-- Derived from 45_input_timers.md (`Ex9E`, `ExA1`, the rules R300 to R302; a value above 0xF is the spec's decision
D16): the key tests skip on the latch, and raise `InvalidKeyIndex(V[x])` for `V[x] > 0xF`. -/
def Obligations.KeyTestsSkipOnTheLatch : Prop :=
  ∀ (s : State) (x : RegIx),
    (StandsFor (0xE09E + 256 * x.val) (.skp x) ∧ StandsFor (0xE0A1 + 256 * x.val) (.sknp x)) ∧
    (∀ k : KeyIx, (s.getV x).toNat = k.val →
      SkipsWhen (.skp x) (s.keys[k] = true) s ∧ SkipsWhen (.sknp x) (s.keys[k] = false) s) ∧
    (0xF < (s.getV x).toNat →
      (∃ t, exec (.skp x) s = .next t ∧ Raises (.invalidKeyIndex (s.getV x)) s t) ∧
      ∃ t, exec (.sknp x) s = .next t ∧ Raises (.invalidKeyIndex (s.getV x)) s t)

/-- Derived from 45_input_timers.md (`Fx0A`, the rules R305, R142, R334; that a held key does not satisfy the wait is the
spec's decision D18): it waits without moving `pc`; a step with no press waits on; the timers go on; the first change of
a key from released to pressed completes it at the next step, whatever other keys do meanwhile; a key already held does
not. -/
def Obligations.KeyWaitCompletesAtAPress : Prop :=
  ∀ (s : State) (x : RegIx),
    StandsFor (0xF00A + 256 * x.val) (.ldVxK x) ∧
    ∃ t, exec (.ldVxK x) s = .next t ∧ t.wait = .waiting x none ∧ OnlyChanges [.wait] s t ∧
      t.out = ⟨false, false, true, .noError⟩ ∧
      (s.fault = none → step t = .next t) ∧
      (t.tickTimers.wait = t.wait ∧ t.tickTimers.dt.toNat = s.dt.toNat - 1 ∧ t.tickTimers.st.toNat = s.st.toNat - 1) ∧
      ∀ k : KeyIx, ∃ u, t.setKey k.val true = .ok u ∧
        (s.keys[k] = true → u.wait = .waiting x none) ∧
        (s.keys[k] = false → s.fault = none → ∀ (j : KeyIx) (b : Bool), ∃ v w, u.setKey j.val b = .ok v ∧
          step v = .next w ∧ (w.getV x).toNat = k.val ∧ RegsSameBut [x] s w ∧ w.pc = s.pc + 2 ∧ w.wait = .idle ∧
          OnlyChanges [.regs, .pc, .keys, .wait] s w ∧ w.out = .quiet)

/-- R304, R306, R307: `Fx07`, `Fx15` and `Fx18`. -/
def Obligations.TimersAreReadAndWritten : Prop :=
  ∀ (s : State) (x : RegIx),
    (StandsFor (0xF007 + 256 * x.val) (.ldVxDT x) ∧ SetsRegister (.ldVxDT x) x s.dt.toNat s) ∧
    (StandsFor (0xF015 + 256 * x.val) (.ldDTVx x) ∧
      ∃ t, exec (.ldDTVx x) s = .next t ∧ t.dt = s.getV x ∧ t.pc = s.pc + 2 ∧ OnlyChanges [.dt, .pc] s t ∧
        t.out = .quiet) ∧
    (StandsFor (0xF018 + 256 * x.val) (.ldSTVx x) ∧
      ∃ t, exec (.ldSTVx x) s = .next t ∧ t.st = s.getV x ∧ t.pc = s.pc + 2 ∧ OnlyChanges [.st, .pc] s t ∧
        t.out = .quiet)

/-- Derived from R44, R41, R42, R421: no step writes a key, and a step changes a timer only when it executes the
instruction that writes it. -/
def Obligations.StepsLeaveKeysAndTimersAlone : Prop :=
  ∀ s t : State, step s = .next t →
    t.keys = s.keys ∧ (t.dt ≠ s.dt → ∃ x, s.Runs (.ldDTVx x)) ∧ (t.st ≠ s.st → ∃ x, s.Runs (.ldSTVx x))

/-! ### The host's calls -/

/-- Derived from 46_host_interface.md (the rules R334, R335; decision D18): `set_key`, the only call but `initialize()` that
writes the latch. -/
def Obligations.SetKeyUpdatesTheLatch : Prop :=
  ∀ (s : State) (index : Int) (pressed : Bool),
    (∀ k : KeyIx, index = k.val →
      ∃ t, s.perform (.setKey index pressed) = (.done, t) ∧ t.keys[k] = pressed ∧
        (∀ j : KeyIx, j ≠ k → t.keys[j] = s.keys[j]) ∧
        (∀ x, pressed = true → s.keys[k] = false → s.wait = .waiting x none → t.wait = .waiting x (some k)) ∧
        ((pressed = false ∨ s.keys[k] = true ∨ ∀ x, s.wait ≠ .waiting x none) → t.wait = s.wait) ∧
        OnlyChanges [.keys, .wait] s t) ∧
    (index < 0 ∨ 15 < index → s.perform (.setKey index pressed) = (.failed .invalidKeyIndex, s)) ∧
    (∀ c : HostCall, c ≠ .initAll → (∀ k b, c ≠ .setKey k b) → (s.perform c).2.keys = s.keys)

/-- Derived from 46_host_interface.md (the rule R336; decision D32): `tick_timers()`, whatever the fault latch and the wait
state hold. -/
def Obligations.TickDecrementsToZero : Prop :=
  ∀ s : State, ∃ t, s.perform .tickTimers = (.done, t) ∧ t.dt.toNat = s.dt.toNat - 1 ∧
    t.st.toNat = s.st.toNat - 1 ∧ OnlyChanges [.dt, .st] s t

/-- Derived from 70_reset_and_hazards.md (the rules R403, R404, R406; decision D24): `load_image` writes the image at 0x200
and nothing else, or fails and changes nothing. -/
def Obligations.ImageIsLoadedVerbatim : Prop :=
  ∀ (s : State) (bytes : List Byte),
    (bytes.length ≤ 3584 →
      ∃ t, s.perform (.loadImage bytes) = (.done, t) ∧
        (∀ k, k < bytes.length → t.byteAt (0x200 + k) = bytes.getD k 0) ∧
        MemSameOutside 0x200 bytes.length s t ∧ OnlyChanges [.mem] s t) ∧
    (3584 < bytes.length → s.perform (.loadImage bytes) = (.failed .imageTooLarge, s))

/-- R337, R338: the getters return the framebuffer and `ST` and change nothing, and no call of the host writes the
framebuffer (but `initialize()`; a step is the core's own). -/
def Obligations.GettersChangeNothing : Prop :=
  ∀ s : State,
    (∃ f, s.perform .getFramebuffer = (.framebuffer f, s) ∧
      ∀ px py, px < 64 → py < 32 → getPixel f (py * 64 + px) = s.pixel px py) ∧
    s.perform .getSoundTimer = (.soundTimer s.st, s) ∧
    ∀ c : HostCall, c ≠ .initAll → c ≠ .stepOnce → (s.perform c).2.fb = s.fb

/-! ### What cannot be observed -/

/-- Derived from 10_state.md (the rule R40): stack entries at index ≥ `SP` are never read: two states that differ only there
step to two states that differ only there. -/
def Obligations.EntriesAboveSpAreNeverRead : Prop :=
  ∀ s s' t : State, SameBelowSP s s' → step s = .next t → ∃ t', step s' = .next t' ∧ SameBelowSP t t'

/-- Derived from R49 (the model's own field, log entry 2): no step reads the recorded outcome of the step before. -/
def Obligations.RecordedOutcomeIsNeverRead : Prop :=
  ∀ (s : State) (o : StepOutcome), step { s with out := o } = step s

/-- Derived from 10_state.md (the rule R40): the stack is changed by `2nnn` and `00EE` only. -/
def Obligations.StackHasTwoWriters : Prop :=
  ∀ (i : Instr) (s t : State), exec i s = .next t → (t.sp ≠ s.sp ∨ t.stk ≠ s.stk) →
    i = .ret ∨ ∃ nnn, i = .call nnn
end

