-- ==== Sys2Proof/Laws/Memory.lean ====
section
/-! SUPPORT. The laws of memory: what a byte reads after a write, and that every memory operation keeps the canonical
form. -/

namespace Sys2Proof.Machine

/-! ### Reading after writing -/

theorem readByte_insertCell_same (a : Nat) (b : Byte) (m : Memory) (h : ∀ c ∈ m, c.1 ≠ a) :
    readByte (insertCell a b m) a = b := by
  induction m with
  | nil => simp [insertCell, readByte]
  | cons c rest ih =>
    have hc : c.1 ≠ a := h c (by simp)
    by_cases hlt : a < c.1
    · simp [insertCell, hlt, readByte]
    · simpa [insertCell, hlt, readByte, hc] using ih fun d hd => h d (by simp [hd])

theorem readByte_insertCell_other {a a' : Nat} (b : Byte) (m : Memory) (h : a' ≠ a) :
    readByte (insertCell a b m) a' = readByte m a' := by
  induction m with
  | nil => simp [insertCell, readByte, h.symm]
  | cons c rest ih =>
    by_cases hlt : a < c.1
    · simp [insertCell, hlt, readByte, h.symm]
    · simp [insertCell, hlt, readByte, ih]

theorem removeCell_absent (a : Nat) (m : Memory) : ∀ c ∈ removeCell a m, c.1 ≠ a := by
  intro c hc
  simpa using (List.mem_filter.mp hc).2

theorem readByte_absent {a : Nat} {m : Memory} (h : ∀ c ∈ m, c.1 ≠ a) : readByte m a = unlisted a := by
  induction m with
  | nil => rfl
  | cons c rest ih =>
    have hc : c.1 ≠ a := h c (by simp)
    simpa [readByte, hc] using ih fun d hd => h d (by simp [hd])

theorem readByte_removeCell_other {a a' : Nat} (m : Memory) (h : a' ≠ a) :
    readByte (removeCell a m) a' = readByte m a' := by
  induction m with
  | nil => rfl
  | cons c rest ih =>
    unfold removeCell at ih ⊢
    by_cases hc : c.1 = a
    · simp [readByte, hc, h.symm, ih]
    · simp [readByte, hc, ih]

/-- A write is seen at its address and nowhere else (R79). -/
theorem readByte_writeByte {a : Nat} (b : Byte) (m : Memory) (h : a < Config.memSize) (a' : Nat) :
    readByte (writeByte m a b) a' = if a' = a then b else readByte m a' := by
  by_cases hb : b = unlisted a
  · by_cases ha : a' = a
    · simp [writeByte, h, hb, ha, readByte_absent (removeCell_absent a m)]
    · simp [writeByte, h, hb, ha, readByte_removeCell_other m ha]
  · by_cases ha : a' = a
    · simp [writeByte, h, hb, ha, readByte_insertCell_same a b _ (removeCell_absent a m)]
    · simp [writeByte, h, hb, ha, readByte_insertCell_other b _ ha, readByte_removeCell_other m ha]

/-- A write beyond memory does not reach it (R14). -/
theorem writeByte_beyond {a : Nat} (b : Byte) (m : Memory) (h : Config.memSize ≤ a) : writeByte m a b = m := by
  simp [writeByte, Nat.not_lt.mpr h]

/-- A write leaves every other address alone, in memory or not. -/
theorem readByte_writeByte_other {a a' : Nat} (b : Byte) (m : Memory) (h : a' ≠ a) :
    readByte (writeByte m a b) a' = readByte m a' := by
  by_cases ha : a < Config.memSize
  · simp [readByte_writeByte b m ha, h]
  · rw [writeByte_beyond b m (Nat.not_lt.mp ha)]

/-- A block write leaves every address outside the block alone. -/
theorem readByte_writeBytes_outside (bytes : List Byte) (m : Memory) (a a' : Nat)
    (h : ¬ (a ≤ a' ∧ a' < a + bytes.length)) : readByte (writeBytes m a bytes) a' = readByte m a' := by
  induction bytes generalizing m a with
  | nil => rfl
  | cons b rest ih =>
    simp only [List.length_cons] at h
    rw [writeBytes, ih _ _ (by omega), readByte_writeByte_other b m (by omega)]

/-- A block write puts byte `k` at address `a + k` (R246, R403). -/
theorem readByte_writeBytes_inside (bytes : List Byte) (m : Memory) (a k : Nat) (hk : k < bytes.length)
    (h : a + bytes.length ≤ Config.memSize) : readByte (writeBytes m a bytes) (a + k) = bytes[k] := by
  induction bytes generalizing m a k with
  | nil => simp at hk
  | cons b rest ih =>
    simp only [List.length_cons] at hk h
    cases k with
    | zero =>
      rw [writeBytes, readByte_writeBytes_outside rest _ _ _ (by omega), readByte_writeByte b m (by omega)]
      simp
    | succ k =>
      have := ih (writeByte m a b) (a + 1) k (by omega) (by omega)
      simpa [writeBytes, Nat.add_assoc, Nat.add_comm 1 k] using this

/-- A block write changes no byte beyond memory. -/
theorem readByte_writeBytes_beyond (bytes : List Byte) (m : Memory) (a a' : Nat) (h : Config.memSize ≤ a') :
    readByte (writeBytes m a bytes) a' = readByte m a' := by
  induction bytes generalizing m a with
  | nil => rfl
  | cons b rest ih =>
    rw [writeBytes, ih]
    by_cases ha : a < Config.memSize
    · exact readByte_writeByte_other b m (by omega)
    · rw [writeByte_beyond b m (by omega)]

/-! ### The canonical form -/

theorem mem_insertCell {a : Nat} {b : Byte} {m : Memory} {c : Host.Cell} (h : c ∈ insertCell a b m) :
    c = (a, b) ∨ c ∈ m := by
  induction m with
  | nil => simpa [insertCell] using h
  | cons d rest ih =>
    by_cases hlt : a < d.1
    · simpa [insertCell, hlt] using h
    · rw [insertCell, if_neg hlt] at h
      rcases List.mem_cons.mp h with h | h
      · exact .inr (by simp [h])
      · exact (ih h).imp_right (by simp +contextual)

theorem insertCell_rising {a : Nat} (b : Byte) {m : Memory} (hm : m.Pairwise (fun c d => c.1 < d.1))
    (ha : ∀ c ∈ m, c.1 ≠ a) : (insertCell a b m).Pairwise (fun c d => c.1 < d.1) := by
  induction m with
  | nil => simp [insertCell]
  | cons c rest ih =>
    obtain ⟨hc, hrest⟩ := List.pairwise_cons.mp hm
    have hca : c.1 ≠ a := ha c (by simp)
    by_cases hlt : a < c.1
    · rw [insertCell, if_pos hlt]
      refine List.pairwise_cons.mpr ⟨fun d hd => ?_, hm⟩
      rcases List.mem_cons.mp hd with rfl | hd
      · exact hlt
      · exact hlt.trans (hc d hd)
    · rw [insertCell, if_neg hlt]
      refine List.pairwise_cons.mpr ⟨fun d hd => ?_, ih hrest fun d hd => ha d (by simp [hd])⟩
      rcases mem_insertCell hd with rfl | hd
      · exact lt_of_le_of_ne (Nat.not_lt.mp hlt) hca
      · exact hc d hd

theorem removeCell_wf (a : Nat) {m : Memory} (hm : m.wf) : (removeCell a m).wf :=
  ⟨hm.1.filter _, fun c hc => hm.2 c (List.mem_filter.mp hc).1⟩

/-- A write keeps the canonical form. -/
theorem writeByte_wf (a : Nat) (b : Byte) {m : Memory} (hm : m.wf) : (writeByte m a b).wf := by
  by_cases ha : a < Config.memSize
  · by_cases hb : b = unlisted a
    · simpa [writeByte, ha, hb] using removeCell_wf a hm
    · have hr := removeCell_wf a hm
      rw [writeByte, if_pos ha, if_neg hb]
      refine ⟨insertCell_rising b hr.1 (removeCell_absent a m), fun c hc => ?_⟩
      rcases mem_insertCell hc with rfl | hc
      · exact ⟨ha, hb⟩
      · exact hr.2 c hc
  · rwa [writeByte_beyond b m (Nat.not_lt.mp ha)]

/-- A block write keeps the canonical form. -/
theorem writeBytes_wf (bytes : List Byte) (a : Nat) {m : Memory} (hm : m.wf) : (writeBytes m a bytes).wf := by
  induction bytes generalizing m a with
  | nil => exact hm
  | cons b rest ih => exact ih _ (writeByte_wf a b hm)

/-- Memory after reset is in canonical form. -/
theorem reset_mem_wf : State.reset.mem.wf := by simp [State.reset, Memory.wf]

end Sys2Proof.Machine
end

