-- ==== Sys2Proof/Laws/State.lean ====
section
/-! SUPPORT. One lemma per field per update of the state, each true by unfolding the update once, so that no later
proof unfolds a record update. -/

namespace Sys2Proof.Machine.State

section setV_fields
variable (s : State) (x : RegIx) (b : Byte)

@[simp] theorem setV_mem : (s.setV x b).mem = s.mem := rfl
@[simp] theorem setV_v : (s.setV x b).v = s.v.set x b := rfl
@[simp] theorem setV_i : (s.setV x b).i = s.i := rfl
@[simp] theorem setV_pc : (s.setV x b).pc = s.pc := rfl
@[simp] theorem setV_stk : (s.setV x b).stk = s.stk := rfl
@[simp] theorem setV_sp : (s.setV x b).sp = s.sp := rfl
@[simp] theorem setV_dt : (s.setV x b).dt = s.dt := rfl
@[simp] theorem setV_st : (s.setV x b).st = s.st := rfl
@[simp] theorem setV_fb : (s.setV x b).fb = s.fb := rfl
@[simp] theorem setV_keys : (s.setV x b).keys = s.keys := rfl
@[simp] theorem setV_wait : (s.setV x b).wait = s.wait := rfl
@[simp] theorem setV_fault : (s.setV x b).fault = s.fault := rfl
@[simp] theorem setV_out : (s.setV x b).out = s.out := rfl
@[simp] theorem setV_draws : (s.setV x b).draws = s.draws := rfl
@[simp] theorem setV_entry (j : Nat) : (s.setV x b).entry j = s.entry j := rfl

end setV_fields

section setRegsUpTo_fields
variable (s : State) (x : RegIx) (f : Nat → Byte)

@[simp] theorem setRegsUpTo_mem : (s.setRegsUpTo x f).mem = s.mem := rfl
@[simp] theorem setRegsUpTo_v : (s.setRegsUpTo x f).v = .ofFn fun j => if j ≤ x then f j.val else s.v[j] := rfl
@[simp] theorem setRegsUpTo_i : (s.setRegsUpTo x f).i = s.i := rfl
@[simp] theorem setRegsUpTo_pc : (s.setRegsUpTo x f).pc = s.pc := rfl
@[simp] theorem setRegsUpTo_stk : (s.setRegsUpTo x f).stk = s.stk := rfl
@[simp] theorem setRegsUpTo_sp : (s.setRegsUpTo x f).sp = s.sp := rfl
@[simp] theorem setRegsUpTo_dt : (s.setRegsUpTo x f).dt = s.dt := rfl
@[simp] theorem setRegsUpTo_st : (s.setRegsUpTo x f).st = s.st := rfl
@[simp] theorem setRegsUpTo_fb : (s.setRegsUpTo x f).fb = s.fb := rfl
@[simp] theorem setRegsUpTo_keys : (s.setRegsUpTo x f).keys = s.keys := rfl
@[simp] theorem setRegsUpTo_wait : (s.setRegsUpTo x f).wait = s.wait := rfl
@[simp] theorem setRegsUpTo_fault : (s.setRegsUpTo x f).fault = s.fault := rfl
@[simp] theorem setRegsUpTo_out : (s.setRegsUpTo x f).out = s.out := rfl
@[simp] theorem setRegsUpTo_draws : (s.setRegsUpTo x f).draws = s.draws := rfl
@[simp] theorem setRegsUpTo_entry (j : Nat) : (s.setRegsUpTo x f).entry j = s.entry j := rfl

end setRegsUpTo_fields

section setI_fields
variable (s : State) (w : Word)

@[simp] theorem setI_mem : (s.setI w).mem = s.mem := rfl
@[simp] theorem setI_v : (s.setI w).v = s.v := rfl
@[simp] theorem setI_i : (s.setI w).i = w := rfl
@[simp] theorem setI_pc : (s.setI w).pc = s.pc := rfl
@[simp] theorem setI_stk : (s.setI w).stk = s.stk := rfl
@[simp] theorem setI_sp : (s.setI w).sp = s.sp := rfl
@[simp] theorem setI_dt : (s.setI w).dt = s.dt := rfl
@[simp] theorem setI_st : (s.setI w).st = s.st := rfl
@[simp] theorem setI_fb : (s.setI w).fb = s.fb := rfl
@[simp] theorem setI_keys : (s.setI w).keys = s.keys := rfl
@[simp] theorem setI_wait : (s.setI w).wait = s.wait := rfl
@[simp] theorem setI_fault : (s.setI w).fault = s.fault := rfl
@[simp] theorem setI_out : (s.setI w).out = s.out := rfl
@[simp] theorem setI_draws : (s.setI w).draws = s.draws := rfl
@[simp] theorem setI_getV (r : RegIx) : (s.setI w).getV r = s.getV r := rfl
@[simp] theorem setI_entry (j : Nat) : (s.setI w).entry j = s.entry j := rfl

end setI_fields

section setDT_fields
variable (s : State) (b : Byte)

@[simp] theorem setDT_mem : (s.setDT b).mem = s.mem := rfl
@[simp] theorem setDT_v : (s.setDT b).v = s.v := rfl
@[simp] theorem setDT_i : (s.setDT b).i = s.i := rfl
@[simp] theorem setDT_pc : (s.setDT b).pc = s.pc := rfl
@[simp] theorem setDT_stk : (s.setDT b).stk = s.stk := rfl
@[simp] theorem setDT_sp : (s.setDT b).sp = s.sp := rfl
@[simp] theorem setDT_dt : (s.setDT b).dt = b := rfl
@[simp] theorem setDT_st : (s.setDT b).st = s.st := rfl
@[simp] theorem setDT_fb : (s.setDT b).fb = s.fb := rfl
@[simp] theorem setDT_keys : (s.setDT b).keys = s.keys := rfl
@[simp] theorem setDT_wait : (s.setDT b).wait = s.wait := rfl
@[simp] theorem setDT_fault : (s.setDT b).fault = s.fault := rfl
@[simp] theorem setDT_out : (s.setDT b).out = s.out := rfl
@[simp] theorem setDT_draws : (s.setDT b).draws = s.draws := rfl
@[simp] theorem setDT_getV (r : RegIx) : (s.setDT b).getV r = s.getV r := rfl
@[simp] theorem setDT_entry (j : Nat) : (s.setDT b).entry j = s.entry j := rfl

end setDT_fields

section setST_fields
variable (s : State) (b : Byte)

@[simp] theorem setST_mem : (s.setST b).mem = s.mem := rfl
@[simp] theorem setST_v : (s.setST b).v = s.v := rfl
@[simp] theorem setST_i : (s.setST b).i = s.i := rfl
@[simp] theorem setST_pc : (s.setST b).pc = s.pc := rfl
@[simp] theorem setST_stk : (s.setST b).stk = s.stk := rfl
@[simp] theorem setST_sp : (s.setST b).sp = s.sp := rfl
@[simp] theorem setST_dt : (s.setST b).dt = s.dt := rfl
@[simp] theorem setST_st : (s.setST b).st = b := rfl
@[simp] theorem setST_fb : (s.setST b).fb = s.fb := rfl
@[simp] theorem setST_keys : (s.setST b).keys = s.keys := rfl
@[simp] theorem setST_wait : (s.setST b).wait = s.wait := rfl
@[simp] theorem setST_fault : (s.setST b).fault = s.fault := rfl
@[simp] theorem setST_out : (s.setST b).out = s.out := rfl
@[simp] theorem setST_draws : (s.setST b).draws = s.draws := rfl
@[simp] theorem setST_getV (r : RegIx) : (s.setST b).getV r = s.getV r := rfl
@[simp] theorem setST_entry (j : Nat) : (s.setST b).entry j = s.entry j := rfl

end setST_fields

section setMem_fields
variable (s : State) (m : Memory)

@[simp] theorem setMem_mem : (s.setMem m).mem = m := rfl
@[simp] theorem setMem_v : (s.setMem m).v = s.v := rfl
@[simp] theorem setMem_i : (s.setMem m).i = s.i := rfl
@[simp] theorem setMem_pc : (s.setMem m).pc = s.pc := rfl
@[simp] theorem setMem_stk : (s.setMem m).stk = s.stk := rfl
@[simp] theorem setMem_sp : (s.setMem m).sp = s.sp := rfl
@[simp] theorem setMem_dt : (s.setMem m).dt = s.dt := rfl
@[simp] theorem setMem_st : (s.setMem m).st = s.st := rfl
@[simp] theorem setMem_fb : (s.setMem m).fb = s.fb := rfl
@[simp] theorem setMem_keys : (s.setMem m).keys = s.keys := rfl
@[simp] theorem setMem_wait : (s.setMem m).wait = s.wait := rfl
@[simp] theorem setMem_fault : (s.setMem m).fault = s.fault := rfl
@[simp] theorem setMem_out : (s.setMem m).out = s.out := rfl
@[simp] theorem setMem_draws : (s.setMem m).draws = s.draws := rfl
@[simp] theorem setMem_getV (r : RegIx) : (s.setMem m).getV r = s.getV r := rfl
@[simp] theorem setMem_entry (j : Nat) : (s.setMem m).entry j = s.entry j := rfl

end setMem_fields

section setFB_fields
variable (s : State) (f : Framebuffer)

@[simp] theorem setFB_mem : (s.setFB f).mem = s.mem := rfl
@[simp] theorem setFB_v : (s.setFB f).v = s.v := rfl
@[simp] theorem setFB_i : (s.setFB f).i = s.i := rfl
@[simp] theorem setFB_pc : (s.setFB f).pc = s.pc := rfl
@[simp] theorem setFB_stk : (s.setFB f).stk = s.stk := rfl
@[simp] theorem setFB_sp : (s.setFB f).sp = s.sp := rfl
@[simp] theorem setFB_dt : (s.setFB f).dt = s.dt := rfl
@[simp] theorem setFB_st : (s.setFB f).st = s.st := rfl
@[simp] theorem setFB_fb : (s.setFB f).fb = f := rfl
@[simp] theorem setFB_keys : (s.setFB f).keys = s.keys := rfl
@[simp] theorem setFB_wait : (s.setFB f).wait = s.wait := rfl
@[simp] theorem setFB_fault : (s.setFB f).fault = s.fault := rfl
@[simp] theorem setFB_out : (s.setFB f).out = s.out := rfl
@[simp] theorem setFB_draws : (s.setFB f).draws = s.draws := rfl
@[simp] theorem setFB_getV (r : RegIx) : (s.setFB f).getV r = s.getV r := rfl
@[simp] theorem setFB_entry (j : Nat) : (s.setFB f).entry j = s.entry j := rfl

end setFB_fields

section goto_fields
variable (s : State) (w : Word)

@[simp] theorem goto_mem : (s.goto w).mem = s.mem := rfl
@[simp] theorem goto_v : (s.goto w).v = s.v := rfl
@[simp] theorem goto_i : (s.goto w).i = s.i := rfl
@[simp] theorem goto_pc : (s.goto w).pc = w := rfl
@[simp] theorem goto_stk : (s.goto w).stk = s.stk := rfl
@[simp] theorem goto_sp : (s.goto w).sp = s.sp := rfl
@[simp] theorem goto_dt : (s.goto w).dt = s.dt := rfl
@[simp] theorem goto_st : (s.goto w).st = s.st := rfl
@[simp] theorem goto_fb : (s.goto w).fb = s.fb := rfl
@[simp] theorem goto_keys : (s.goto w).keys = s.keys := rfl
@[simp] theorem goto_wait : (s.goto w).wait = s.wait := rfl
@[simp] theorem goto_fault : (s.goto w).fault = s.fault := rfl
@[simp] theorem goto_out : (s.goto w).out = .quiet := rfl
@[simp] theorem goto_draws : (s.goto w).draws = s.draws := rfl
@[simp] theorem goto_getV (r : RegIx) : (s.goto w).getV r = s.getV r := rfl
@[simp] theorem goto_entry (j : Nat) : (s.goto w).entry j = s.entry j := rfl

end goto_fields

section advance_fields
variable (s : State)

@[simp] theorem advance_mem : (s.advance).mem = s.mem := rfl
@[simp] theorem advance_v : (s.advance).v = s.v := rfl
@[simp] theorem advance_i : (s.advance).i = s.i := rfl
@[simp] theorem advance_pc : (s.advance).pc = s.pc + 2 := rfl
@[simp] theorem advance_stk : (s.advance).stk = s.stk := rfl
@[simp] theorem advance_sp : (s.advance).sp = s.sp := rfl
@[simp] theorem advance_dt : (s.advance).dt = s.dt := rfl
@[simp] theorem advance_st : (s.advance).st = s.st := rfl
@[simp] theorem advance_fb : (s.advance).fb = s.fb := rfl
@[simp] theorem advance_keys : (s.advance).keys = s.keys := rfl
@[simp] theorem advance_wait : (s.advance).wait = s.wait := rfl
@[simp] theorem advance_fault : (s.advance).fault = s.fault := rfl
@[simp] theorem advance_out : (s.advance).out = .quiet := rfl
@[simp] theorem advance_draws : (s.advance).draws = s.draws := rfl
@[simp] theorem advance_getV (r : RegIx) : (s.advance).getV r = s.getV r := rfl
@[simp] theorem advance_entry (j : Nat) : (s.advance).entry j = s.entry j := rfl

end advance_fields

section skipIf_fields
variable (s : State) (c : Bool)

@[simp] theorem skipIf_mem : (s.skipIf c).mem = s.mem := rfl
@[simp] theorem skipIf_v : (s.skipIf c).v = s.v := rfl
@[simp] theorem skipIf_i : (s.skipIf c).i = s.i := rfl
@[simp] theorem skipIf_pc : (s.skipIf c).pc = if c then s.npc + 2 else s.npc := rfl
@[simp] theorem skipIf_stk : (s.skipIf c).stk = s.stk := rfl
@[simp] theorem skipIf_sp : (s.skipIf c).sp = s.sp := rfl
@[simp] theorem skipIf_dt : (s.skipIf c).dt = s.dt := rfl
@[simp] theorem skipIf_st : (s.skipIf c).st = s.st := rfl
@[simp] theorem skipIf_fb : (s.skipIf c).fb = s.fb := rfl
@[simp] theorem skipIf_keys : (s.skipIf c).keys = s.keys := rfl
@[simp] theorem skipIf_wait : (s.skipIf c).wait = s.wait := rfl
@[simp] theorem skipIf_fault : (s.skipIf c).fault = s.fault := rfl
@[simp] theorem skipIf_out : (s.skipIf c).out = .quiet := rfl
@[simp] theorem skipIf_draws : (s.skipIf c).draws = s.draws := rfl
@[simp] theorem skipIf_getV (r : RegIx) : (s.skipIf c).getV r = s.getV r := rfl
@[simp] theorem skipIf_entry (j : Nat) : (s.skipIf c).entry j = s.entry j := rfl

end skipIf_fields

section signalRedraw_fields
variable (s : State)

@[simp] theorem signalRedraw_mem : (s.signalRedraw).mem = s.mem := rfl
@[simp] theorem signalRedraw_v : (s.signalRedraw).v = s.v := rfl
@[simp] theorem signalRedraw_i : (s.signalRedraw).i = s.i := rfl
@[simp] theorem signalRedraw_pc : (s.signalRedraw).pc = s.pc := rfl
@[simp] theorem signalRedraw_stk : (s.signalRedraw).stk = s.stk := rfl
@[simp] theorem signalRedraw_sp : (s.signalRedraw).sp = s.sp := rfl
@[simp] theorem signalRedraw_dt : (s.signalRedraw).dt = s.dt := rfl
@[simp] theorem signalRedraw_st : (s.signalRedraw).st = s.st := rfl
@[simp] theorem signalRedraw_fb : (s.signalRedraw).fb = s.fb := rfl
@[simp] theorem signalRedraw_keys : (s.signalRedraw).keys = s.keys := rfl
@[simp] theorem signalRedraw_wait : (s.signalRedraw).wait = s.wait := rfl
@[simp] theorem signalRedraw_fault : (s.signalRedraw).fault = s.fault := rfl
@[simp] theorem signalRedraw_out : (s.signalRedraw).out = ⟨true, s.out.halted, s.out.waiting, s.out.error⟩ := rfl
@[simp] theorem signalRedraw_draws : (s.signalRedraw).draws = s.draws := rfl
@[simp] theorem signalRedraw_getV (r : RegIx) : (s.signalRedraw).getV r = s.getV r := rfl
@[simp] theorem signalRedraw_entry (j : Nat) : (s.signalRedraw).entry j = s.entry j := rfl

end signalRedraw_fields

section setResultFlag_fields
variable (s : State) (x : RegIx) (p : Byte × Bool)

@[simp] theorem setResultFlag_mem : (s.setResultFlag x p).mem = s.mem := rfl
@[simp] theorem setResultFlag_v : (s.setResultFlag x p).v = (s.v.set x p.1).set VF.val (flagByte p.2) := rfl
@[simp] theorem setResultFlag_i : (s.setResultFlag x p).i = s.i := rfl
@[simp] theorem setResultFlag_pc : (s.setResultFlag x p).pc = s.pc := rfl
@[simp] theorem setResultFlag_stk : (s.setResultFlag x p).stk = s.stk := rfl
@[simp] theorem setResultFlag_sp : (s.setResultFlag x p).sp = s.sp := rfl
@[simp] theorem setResultFlag_dt : (s.setResultFlag x p).dt = s.dt := rfl
@[simp] theorem setResultFlag_st : (s.setResultFlag x p).st = s.st := rfl
@[simp] theorem setResultFlag_fb : (s.setResultFlag x p).fb = s.fb := rfl
@[simp] theorem setResultFlag_keys : (s.setResultFlag x p).keys = s.keys := rfl
@[simp] theorem setResultFlag_wait : (s.setResultFlag x p).wait = s.wait := rfl
@[simp] theorem setResultFlag_fault : (s.setResultFlag x p).fault = s.fault := rfl
@[simp] theorem setResultFlag_out : (s.setResultFlag x p).out = s.out := rfl
@[simp] theorem setResultFlag_draws : (s.setResultFlag x p).draws = s.draws := rfl
@[simp] theorem setResultFlag_entry (j : Nat) : (s.setResultFlag x p).entry j = s.entry j := rfl

end setResultFlag_fields

section fatal_fields
variable (s : State) (e : FatalError)

@[simp] theorem fatal_mem : (s.fatal e).mem = s.mem := rfl
@[simp] theorem fatal_v : (s.fatal e).v = s.v := rfl
@[simp] theorem fatal_i : (s.fatal e).i = s.i := rfl
@[simp] theorem fatal_pc : (s.fatal e).pc = s.pc := rfl
@[simp] theorem fatal_stk : (s.fatal e).stk = s.stk := rfl
@[simp] theorem fatal_sp : (s.fatal e).sp = s.sp := rfl
@[simp] theorem fatal_dt : (s.fatal e).dt = s.dt := rfl
@[simp] theorem fatal_st : (s.fatal e).st = s.st := rfl
@[simp] theorem fatal_fb : (s.fatal e).fb = s.fb := rfl
@[simp] theorem fatal_keys : (s.fatal e).keys = s.keys := rfl
@[simp] theorem fatal_wait : (s.fatal e).wait = s.wait := rfl
@[simp] theorem fatal_fault : (s.fatal e).fault = some e := rfl
@[simp] theorem fatal_out : (s.fatal e).out = ⟨false, true, false, .fatal e⟩ := rfl
@[simp] theorem fatal_draws : (s.fatal e).draws = s.draws := rfl
@[simp] theorem fatal_getV (r : RegIx) : (s.fatal e).getV r = s.getV r := rfl
@[simp] theorem fatal_entry (j : Nat) : (s.fatal e).entry j = s.entry j := rfl

end fatal_fields

section reportFault_fields
variable (s : State) (e : FatalError)

@[simp] theorem reportFault_mem : (s.reportFault e).mem = s.mem := rfl
@[simp] theorem reportFault_v : (s.reportFault e).v = s.v := rfl
@[simp] theorem reportFault_i : (s.reportFault e).i = s.i := rfl
@[simp] theorem reportFault_pc : (s.reportFault e).pc = s.pc := rfl
@[simp] theorem reportFault_stk : (s.reportFault e).stk = s.stk := rfl
@[simp] theorem reportFault_sp : (s.reportFault e).sp = s.sp := rfl
@[simp] theorem reportFault_dt : (s.reportFault e).dt = s.dt := rfl
@[simp] theorem reportFault_st : (s.reportFault e).st = s.st := rfl
@[simp] theorem reportFault_fb : (s.reportFault e).fb = s.fb := rfl
@[simp] theorem reportFault_keys : (s.reportFault e).keys = s.keys := rfl
@[simp] theorem reportFault_wait : (s.reportFault e).wait = s.wait := rfl
@[simp] theorem reportFault_fault : (s.reportFault e).fault = s.fault := rfl
@[simp] theorem reportFault_out : (s.reportFault e).out = ⟨false, true, false, .fatal e⟩ := rfl
@[simp] theorem reportFault_draws : (s.reportFault e).draws = s.draws := rfl
@[simp] theorem reportFault_getV (r : RegIx) : (s.reportFault e).getV r = s.getV r := rfl
@[simp] theorem reportFault_entry (j : Nat) : (s.reportFault e).entry j = s.entry j := rfl

end reportFault_fields

section reportWaiting_fields
variable (s : State)

@[simp] theorem reportWaiting_mem : (s.reportWaiting).mem = s.mem := rfl
@[simp] theorem reportWaiting_v : (s.reportWaiting).v = s.v := rfl
@[simp] theorem reportWaiting_i : (s.reportWaiting).i = s.i := rfl
@[simp] theorem reportWaiting_pc : (s.reportWaiting).pc = s.pc := rfl
@[simp] theorem reportWaiting_stk : (s.reportWaiting).stk = s.stk := rfl
@[simp] theorem reportWaiting_sp : (s.reportWaiting).sp = s.sp := rfl
@[simp] theorem reportWaiting_dt : (s.reportWaiting).dt = s.dt := rfl
@[simp] theorem reportWaiting_st : (s.reportWaiting).st = s.st := rfl
@[simp] theorem reportWaiting_fb : (s.reportWaiting).fb = s.fb := rfl
@[simp] theorem reportWaiting_keys : (s.reportWaiting).keys = s.keys := rfl
@[simp] theorem reportWaiting_wait : (s.reportWaiting).wait = s.wait := rfl
@[simp] theorem reportWaiting_fault : (s.reportWaiting).fault = s.fault := rfl
@[simp] theorem reportWaiting_out : (s.reportWaiting).out = ⟨false, false, true, .noError⟩ := rfl
@[simp] theorem reportWaiting_draws : (s.reportWaiting).draws = s.draws := rfl
@[simp] theorem reportWaiting_getV (r : RegIx) : (s.reportWaiting).getV r = s.getV r := rfl
@[simp] theorem reportWaiting_entry (j : Nat) : (s.reportWaiting).entry j = s.entry j := rfl

end reportWaiting_fields

section reportUnknown_fields
variable (s : State) (w : Word)

@[simp] theorem reportUnknown_mem : (s.reportUnknown w).mem = s.mem := rfl
@[simp] theorem reportUnknown_v : (s.reportUnknown w).v = s.v := rfl
@[simp] theorem reportUnknown_i : (s.reportUnknown w).i = s.i := rfl
@[simp] theorem reportUnknown_pc : (s.reportUnknown w).pc = s.pc + 2 := rfl
@[simp] theorem reportUnknown_stk : (s.reportUnknown w).stk = s.stk := rfl
@[simp] theorem reportUnknown_sp : (s.reportUnknown w).sp = s.sp := rfl
@[simp] theorem reportUnknown_dt : (s.reportUnknown w).dt = s.dt := rfl
@[simp] theorem reportUnknown_st : (s.reportUnknown w).st = s.st := rfl
@[simp] theorem reportUnknown_fb : (s.reportUnknown w).fb = s.fb := rfl
@[simp] theorem reportUnknown_keys : (s.reportUnknown w).keys = s.keys := rfl
@[simp] theorem reportUnknown_wait : (s.reportUnknown w).wait = s.wait := rfl
@[simp] theorem reportUnknown_fault : (s.reportUnknown w).fault = s.fault := rfl
@[simp] theorem reportUnknown_out : (s.reportUnknown w).out = ⟨false, false, false, .unknownOpcode w⟩ := rfl
@[simp] theorem reportUnknown_draws : (s.reportUnknown w).draws = s.draws := rfl
@[simp] theorem reportUnknown_getV (r : RegIx) : (s.reportUnknown w).getV r = s.getV r := rfl
@[simp] theorem reportUnknown_entry (j : Nat) : (s.reportUnknown w).entry j = s.entry j := rfl

end reportUnknown_fields

section completeWait_fields
variable (s : State) (x : RegIx) (k : KeyIx)

@[simp] theorem completeWait_mem : (s.completeWait x k).mem = s.mem := rfl
@[simp] theorem completeWait_v : (s.completeWait x k).v = s.v.set x (BitVec.ofNat 8 k.val) := rfl
@[simp] theorem completeWait_i : (s.completeWait x k).i = s.i := rfl
@[simp] theorem completeWait_pc : (s.completeWait x k).pc = s.pc + 2 := rfl
@[simp] theorem completeWait_stk : (s.completeWait x k).stk = s.stk := rfl
@[simp] theorem completeWait_sp : (s.completeWait x k).sp = s.sp := rfl
@[simp] theorem completeWait_dt : (s.completeWait x k).dt = s.dt := rfl
@[simp] theorem completeWait_st : (s.completeWait x k).st = s.st := rfl
@[simp] theorem completeWait_fb : (s.completeWait x k).fb = s.fb := rfl
@[simp] theorem completeWait_keys : (s.completeWait x k).keys = s.keys := rfl
@[simp] theorem completeWait_wait : (s.completeWait x k).wait = .idle := rfl
@[simp] theorem completeWait_fault : (s.completeWait x k).fault = s.fault := rfl
@[simp] theorem completeWait_out : (s.completeWait x k).out = .quiet := rfl
@[simp] theorem completeWait_draws : (s.completeWait x k).draws = s.draws := rfl
@[simp] theorem completeWait_entry (j : Nat) : (s.completeWait x k).entry j = s.entry j := rfl

end completeWait_fields

section tickTimers_fields
variable (s : State)

@[simp] theorem tickTimers_mem : (s.tickTimers).mem = s.mem := rfl
@[simp] theorem tickTimers_v : (s.tickTimers).v = s.v := rfl
@[simp] theorem tickTimers_i : (s.tickTimers).i = s.i := rfl
@[simp] theorem tickTimers_pc : (s.tickTimers).pc = s.pc := rfl
@[simp] theorem tickTimers_stk : (s.tickTimers).stk = s.stk := rfl
@[simp] theorem tickTimers_sp : (s.tickTimers).sp = s.sp := rfl
@[simp] theorem tickTimers_dt : (s.tickTimers).dt = countDown s.dt := rfl
@[simp] theorem tickTimers_st : (s.tickTimers).st = countDown s.st := rfl
@[simp] theorem tickTimers_fb : (s.tickTimers).fb = s.fb := rfl
@[simp] theorem tickTimers_keys : (s.tickTimers).keys = s.keys := rfl
@[simp] theorem tickTimers_wait : (s.tickTimers).wait = s.wait := rfl
@[simp] theorem tickTimers_fault : (s.tickTimers).fault = s.fault := rfl
@[simp] theorem tickTimers_out : (s.tickTimers).out = s.out := rfl
@[simp] theorem tickTimers_draws : (s.tickTimers).draws = s.draws := rfl
@[simp] theorem tickTimers_getV (r : RegIx) : (s.tickTimers).getV r = s.getV r := rfl
@[simp] theorem tickTimers_entry (j : Nat) : (s.tickTimers).entry j = s.entry j := rfl

end tickTimers_fields

section putKey_fields
variable (s : State) (k : KeyIx) (b : Bool)

@[simp] theorem putKey_mem : (s.putKey k b).mem = s.mem := rfl
@[simp] theorem putKey_v : (s.putKey k b).v = s.v := rfl
@[simp] theorem putKey_i : (s.putKey k b).i = s.i := rfl
@[simp] theorem putKey_pc : (s.putKey k b).pc = s.pc := rfl
@[simp] theorem putKey_stk : (s.putKey k b).stk = s.stk := rfl
@[simp] theorem putKey_sp : (s.putKey k b).sp = s.sp := rfl
@[simp] theorem putKey_dt : (s.putKey k b).dt = s.dt := rfl
@[simp] theorem putKey_st : (s.putKey k b).st = s.st := rfl
@[simp] theorem putKey_fb : (s.putKey k b).fb = s.fb := rfl
@[simp] theorem putKey_keys : (s.putKey k b).keys = s.keys.set k b := rfl
@[simp] theorem putKey_wait : (s.putKey k b).wait = if b && !s.keys[k] then s.wait.press k else s.wait := rfl
@[simp] theorem putKey_fault : (s.putKey k b).fault = s.fault := rfl
@[simp] theorem putKey_out : (s.putKey k b).out = s.out := rfl
@[simp] theorem putKey_draws : (s.putKey k b).draws = s.draws := rfl
@[simp] theorem putKey_getV (r : RegIx) : (s.putKey k b).getV r = s.getV r := rfl
@[simp] theorem putKey_entry (j : Nat) : (s.putKey k b).entry j = s.entry j := rfl

end putKey_fields

end Sys2Proof.Machine.State
end

