-- ==== Sys2Proof/Laws/Ops.lean ====
section
/-! SUPPORT. What each shared operation can do, said once: registers, the call stack, the bounds check, key operands,
pixels, the unchanged parts, and the fields of a word. -/

namespace Sys2Proof.Machine

/-! ### Registers -/

/-- A register reads what was last written to it; the others are unchanged (R33). -/
theorem getV_setV (s : State) (x r : RegIx) (b : Byte) :
    (s.setV x b).getV r = if r = x then b else s.getV r := by
  by_cases h : r = x
  · simp [State.getV, h]
  · have : x.val ≠ r.val := fun h' => h (Fin.ext h'.symm)
    simp [State.getV, h, this]

@[simp] theorem getV_setV_same (s : State) (x : RegIx) (b : Byte) : (s.setV x b).getV x = b := by
  simp [getV_setV]

@[simp] theorem getV_setV_other (s : State) {x r : RegIx} (b : Byte) (h : r ≠ x) :
    (s.setV x b).getV r = s.getV r := by
  simp [getV_setV, h]

/-- A block load writes the registers up to `x` and no other (R247). -/
theorem getV_setRegsUpTo (s : State) (x r : RegIx) (f : Nat → Byte) :
    (s.setRegsUpTo x f).getV r = if r ≤ x then f r.val else s.getV r := by
  simp [State.getV]

/-- The result, unless it goes to `VF`, and the flag (R206). -/
theorem getV_setResultFlag (s : State) (x r : RegIx) (p : Byte × Bool) :
    (s.setResultFlag x p).getV r = if r = VF then flagByte p.2 else if r = x then p.1 else s.getV r := by
  rw [State.setResultFlag, getV_setV, getV_setV]

/-- The bytes a block store writes: byte j is `V[j]` (R246). -/
theorem regsUpTo_length (s : State) (x : RegIx) : (s.regsUpTo x).length = x.val + 1 := by
  simp [State.regsUpTo]

theorem regsUpTo_getElem (s : State) (x : RegIx) (j : Nat) (h : j < (s.regsUpTo x).length) :
    (s.regsUpTo x)[j] = s.getV ⟨j, by have := regsUpTo_length s x; omega⟩ := by
  simp [State.regsUpTo, State.getV]

/-! ### The call stack -/

theorem entry_eq (s : State) (k : Nat) (h : k < Config.stackDepth) : s.entry k = s.stk[k] := by
  simp [State.entry, List.getD_eq_getElem?_getD, h]

/-- A push that answers has room; it writes entry `SP`, moves `SP` up by one, and does nothing else (R40). -/
theorem push_eq_some {s t : State} {v : Word} (h : s.push v = some t) :
    s.sp.val < Config.stackDepth ∧ t.sp.val = s.sp.val + 1 ∧ t.entry s.sp.val = v ∧
      (∀ k, k ≠ s.sp.val → t.entry k = s.entry k) ∧ t = { s with stk := t.stk, sp := t.sp } := by
  unfold State.push at h
  split at h
  · rename_i hlt
    cases h
    refine ⟨hlt, rfl, ?_, fun k hk => ?_, rfl⟩
    · simp [State.entry, List.getD_eq_getElem?_getD, Vector.toList_set, hlt]
    · simp [State.entry, List.getD_eq_getElem?_getD, Vector.toList_set, hk.symm]
  · cases h

/-- A push fails exactly when the stack is full (R172). -/
theorem push_eq_none {s : State} {v : Word} : s.push v = none ↔ s.sp.val = Config.stackDepth := by
  have := s.sp.isLt
  unfold State.push
  split <;> simp <;> omega

/-- A pop that answers has an entry; it gives entry `SP − 1`, moves `SP` down by one, and does nothing else (R40). -/
theorem pop_eq_some {s t : State} {v : Word} (h : s.pop = some (v, t)) :
    s.sp.val = t.sp.val + 1 ∧ v = s.entry t.sp.val ∧ t = { s with sp := t.sp } := by
  unfold State.pop at h
  split at h
  · cases h
  · rename_i k hk hsp
    obtain ⟨rfl, rfl⟩ := Prod.mk.inj (Option.some.inj h)
    exact ⟨by simp [hsp], (entry_eq s k _).symm, rfl⟩

/-- A pop fails exactly when the stack is empty (R170). -/
theorem pop_eq_none {s : State} : s.pop = none ↔ s.sp.val = 0 := by
  unfold State.pop
  split <;> rename_i hsp <;> simp [hsp]

/-! ### Data accesses, key operands, pixels -/

/-- No accessed address is outside memory (R241). -/
theorem firstOutside_eq_none {base len : Nat} :
    firstOutside base len = none ↔ ∀ a, base ≤ a → a < base + len → a < 4096 := by
  unfold firstOutside
  split
  · rename_i h
    simp only [true_iff]
    intro a _ _
    simp only [Config.memSize] at h
    omega
  · rename_i h
    simp only [reduceCtorEq, false_iff]
    intro hall
    simp only [Config.memSize] at h
    have := hall (base + len - 1) (by omega) (by omega)
    omega

/-- The lowest accessed address that is outside memory (R241). -/
theorem firstOutside_eq_some {base len a : Nat} :
    firstOutside base len = some a ↔
      (base ≤ a ∧ a < base + len ∧ 4096 ≤ a) ∧ ∀ b, base ≤ b → b < base + len → 4096 ≤ b → a ≤ b := by
  unfold firstOutside
  simp only [Config.memSize]
  split
  · rename_i h
    simp only [reduceCtorEq, false_iff]
    rintro ⟨_, _⟩
    omega
  · rename_i h
    simp only [Option.some.injEq]
    constructor
    · rintro rfl
      exact ⟨by omega, fun b _ _ _ => by omega⟩
    · rintro ⟨_, hmin⟩
      have := hmin (max base 4096) (by omega) (by omega) (by omega)
      omega

/-- The two ends of the bounds check (R241). -/
theorem ifInMemory_cases (s : State) (len : Nat) (t : State) :
    (firstOutside s.i.toNat len = none ∧ s.ifInMemory len t = t) ∨
      ∃ a, firstOutside s.i.toNat len = some a ∧ s.ifInMemory len t = s.fatal (.outOfBounds .data a) := by
  unfold State.ifInMemory
  split
  · rename_i a h
    exact .inr ⟨a, h, rfl⟩
  · rename_i h
    exact .inl ⟨h, rfl⟩

/-- A key operand is a value of at most 0xF (R302). -/
theorem keyOf_eq_some {b : Byte} {k : KeyIx} : keyOf b = some k ↔ b.toNat = k.val := by
  unfold keyOf
  split
  · simp [Fin.ext_iff]
  · have := k.isLt
    simp only [reduceCtorEq, false_iff]
    omega

theorem keyOf_eq_none {b : Byte} : keyOf b = none ↔ 0xF < b.toNat := by
  unfold keyOf
  split <;> simp <;> omega

/-- Flipping a pixel of the framebuffer changes that pixel and no other (R43). -/
theorem getPixel_flipPixel (f : Framebuffer) {a b : Nat} (ha : a < 2048) (hb : b < 2048) :
    getPixel (flipPixel f a) b = if b = a then !getPixel f b else getPixel f b := by
  have ha' : a / 64 < 32 := by omega
  have hb' : b / 64 < 32 := by omega
  have hm : b % 64 < 64 := by omega
  by_cases h : b = a
  · subst h
    simp [getPixel, flipPixel, hb', hm]
  · by_cases hrow : a / 64 = b / 64
    · have hcol : a % 64 ≠ b % 64 := by omega
      simp [getPixel, flipPixel, hb', h, hrow, hcol]
    · simp [getPixel, flipPixel, ha', hb', h, hrow]

/-- A framebuffer is its pixels. -/
theorem framebuffer_ext {f g : Framebuffer}
    (h : ∀ px py, px < 64 → py < 32 → getPixel f (py * 64 + px) = getPixel g (py * 64 + px)) : f = g := by
  apply Vector.ext
  intro y hy
  apply BitVec.eq_of_getLsbD_eq
  intro x hx
  simp only [Config.fbHeight, Config.fbWidth] at hy hx
  have hd : (y * 64 + x) / 64 = y := by omega
  have hm : (y * 64 + x) % 64 = x := by omega
  simpa [getPixel, hd, hm, hy] using h x y hx hy

/-! ### Unchanged parts -/

/-- An update that leaves the named field of every other part alone changes only the parts named. -/
theorem onlyChanges_of_eq {s t : State} {ps : List Part}
    (h : ∀ p, p ∉ ps → match p with
      | .mem => t.mem = s.mem
      | .regs => t.v = s.v
      | .index => t.i = s.i
      | .pc => t.pc = s.pc
      | .stack => t.sp = s.sp ∧ t.stk = s.stk
      | .dt => t.dt = s.dt
      | .st => t.st = s.st
      | .fb => t.fb = s.fb
      | .keys => t.keys = s.keys
      | .wait => t.wait = s.wait
      | .fault => t.fault = s.fault
      | .draws => t.draws = s.draws) : OnlyChanges ps s t := by
  intro p hp
  have := h p hp
  cases p <;> simp_all [Part.Same, State.byteAt, State.getV]

/-- Raising a fatal error is precise (R365). -/
theorem fatal_raises (s : State) (e : FatalError) : Raises e s (s.fatal e) := by
  refine ⟨rfl, onlyChanges_of_eq fun p hp => ?_, rfl⟩
  cases p <;> simp_all

/-! ### The fields of a word, as numbers (R101) -/

theorem fieldOp_eq (w : Word) : fieldOp w = w.toNat / 4096 := by
  have := w.isLt
  simp [fieldOp, BitVec.extractLsb'_toNat, Nat.shiftRight_eq_div_pow]
  omega

theorem fieldX_val (w : Word) : (fieldX w).val = w.toNat / 256 % 16 := by
  simp [fieldX, Nat.shiftRight_eq_div_pow]

theorem fieldY_val (w : Word) : (fieldY w).val = w.toNat / 16 % 16 := by
  simp [fieldY, Nat.shiftRight_eq_div_pow]

theorem fieldN_eq (w : Word) : fieldN w = w.toNat % 16 := by
  simp [fieldN, BitVec.extractLsb'_toNat]

theorem fieldKK_toNat (w : Word) : (fieldKK w).toNat = w.toNat % 256 := by
  simp [fieldKK, BitVec.extractLsb'_toNat]

theorem fieldNNN_toNat (w : Word) : (fieldNNN w).toNat = w.toNat % 4096 := by
  simp [fieldNNN, BitVec.extractLsb'_toNat]
  omega

end Sys2Proof.Machine
end

