-- ==== Sys2Proof/Laws/Drawing.lean ====
section
/-! SUPPORT. What drawing a sprite does, said once: a pixel visited an odd number of times is flipped, and the flag is
set by a visit to a pixel that is on at that time. -/

namespace Sys2Proof.Machine

theorem pixelIndex_lt (cx cy : Byte) (r c : Nat) : pixelIndex cx cy r c < 2048 := by
  simp only [pixelIndex, Config.fbHeight, Config.fbWidth]
  omega

/-- The pixel index names its column and row (R43). -/
theorem pixelIndex_eq {cx cy : Byte} {r c px py : Nat} (hx : px < 64) :
    pixelIndex cx cy r c = py * 64 + px ↔ px = (cx.toNat + c) % 64 ∧ py = (cy.toNat + r) % 32 := by
  simp only [pixelIndex, Config.fbHeight, Config.fbWidth]
  omega

/-- Visiting the pixels of a list, none of them twice. -/
theorem foldl_drawPixel (l : List Nat) (d : Drawing) (hl : l.Nodup) (hlt : ∀ i ∈ l, i < 2048) :
    (∀ b, b < 2048 → getPixel (l.foldl drawPixel d).1 b = Bool.xor (getPixel d.1 b) (decide (b ∈ l))) ∧
      (l.foldl drawPixel d).2 = (d.2 || l.any (getPixel d.1)) := by
  induction l generalizing d with
  | nil => simp
  | cons i rest ih =>
    obtain ⟨hi, hrest⟩ := List.nodup_cons.mp hl
    have hi' : i < 2048 := hlt i (by simp)
    obtain ⟨h1, h2⟩ := ih (drawPixel d i) hrest fun j hj => hlt j (by simp [hj])
    constructor
    · intro b hb
      rw [List.foldl_cons, h1 b hb]
      simp only [drawPixel, getPixel_flipPixel d.1 hi' hb]
      by_cases hbi : b = i
      · subst hbi
        simp [hi]
      · simp [hbi]
    · have hany : rest.any (getPixel (drawPixel d i).1) = rest.any (getPixel d.1) := by
        rw [Bool.eq_iff_iff]
        simp only [List.any_eq_true]
        refine exists_congr fun j => and_congr_right fun hj => ?_
        have hji : j ≠ i := fun h => hi (h ▸ hj)
        simp [drawPixel, getPixel_flipPixel d.1 hi' (hlt j (by simp [hj])), hji]
      rw [List.foldl_cons, h2, hany]
      simp [drawPixel, Bool.or_assoc]

/-- The pixels of a sprite's row, in the order they are visited. -/
def rowPixels (cx cy : Byte) (r : Nat) (b : Byte) : List Nat :=
  ((List.range 8).filter (spriteBit b)).map (pixelIndex cx cy r)

/-- The pixels of a sprite, in the order they are visited. -/
def spritePixels (m : Memory) (base : Nat) (cx cy : Byte) (n : Nat) : List Nat :=
  (List.range n).flatMap fun r => rowPixels cx cy r (readByte m (base + r))

theorem drawRow_eq (cx cy : Byte) (r : Nat) (b : Byte) (d : Drawing) :
    drawRow cx cy r b d = (rowPixels cx cy r b).foldl drawPixel d := by
  simp [drawRow, rowPixels, List.foldl_map, List.foldl_filter]

theorem drawSprite_eq (m : Memory) (base : Nat) (cx cy : Byte) (n : Nat) (d : Drawing) :
    drawSprite m base cx cy n d = (spritePixels m base cx cy n).foldl drawPixel d := by
  simp [drawSprite, spritePixels, drawRow_eq, List.foldl_flatMap]

theorem mem_spritePixels {m : Memory} {base : Nat} {cx cy : Byte} {n i : Nat} :
    i ∈ spritePixels m base cx cy n ↔
      ∃ r c, r < n ∧ c < 8 ∧ spriteBit (readByte m (base + r)) c = true ∧ i = pixelIndex cx cy r c := by
  simp only [spritePixels, rowPixels, List.mem_flatMap, List.mem_range, List.mem_map, List.mem_filter]
  constructor
  · rintro ⟨r, hr, c, ⟨hc, hb⟩, rfl⟩
    exact ⟨r, c, hr, hc, hb, rfl⟩
  · rintro ⟨r, c, hr, hc, hb, rfl⟩
    exact ⟨r, hr, c, ⟨hc, hb⟩, rfl⟩

end Sys2Proof.Machine
end

