-- ==== Sys2Proof/Laws/PerInstr.lean ====
section
/-! SUPPORT. One fact about every instruction as syntax: its word selects its own row of the opcode map (R110), by the
row's match and mask. One lemma per constructor; the case split over them is the host's. -/

namespace Sys2Proof.Laws

/-! ### The words of the formats under the masks of the opcode map (R102, R110) -/

theorem nnn_mask (op : BitVec 4) (nnn : Word) : encodeNNN op nnn &&& 0xF000 = nibbleAt 12 op := by
  apply BitVec.eq_of_getLsbD_eq
  intro k hk
  interval_cases k <;> simp [encodeNNN, nibbleAt]

theorem xkk_mask (op : BitVec 4) (x : RegIx) (kk : Byte) : encodeXKK op x kk &&& 0xF000 = nibbleAt 12 op := by
  apply BitVec.eq_of_getLsbD_eq
  intro k hk
  interval_cases k <;> simp [encodeXKK, regAt, nibbleAt]

theorem x_mask (op : BitVec 4) (x : RegIx) (kk : Byte) :
    encodeXKK op x kk &&& 0xF0FF = nibbleAt 12 op ||| kk.setWidth 16 := by
  apply BitVec.eq_of_getLsbD_eq
  intro k hk
  interval_cases k <;> simp [encodeXKK, regAt, nibbleAt]

theorem xyn_mask (op : BitVec 4) (x y : RegIx) (n : BitVec 4) :
    encodeXYN op x y n &&& 0xF000 = nibbleAt 12 op := by
  apply BitVec.eq_of_getLsbD_eq
  intro k hk
  interval_cases k <;> simp [encodeXYN, regAt, nibbleAt]

theorem xy_mask (op : BitVec 4) (x y : RegIx) (n : BitVec 4) :
    encodeXYN op x y n &&& 0xF00F = nibbleAt 12 op ||| nibbleAt 0 n := by
  apply BitVec.eq_of_getLsbD_eq
  intro k hk
  interval_cases k <;> simp [encodeXYN, regAt, nibbleAt]

end Sys2Proof.Laws

namespace Sys2Proof.Laws.EncodeSelectsRow

/-- The instruction's word selects the row of the opcode map that carries its number (R110). -/
def Statement (i : Instr) : Prop := ∃ r ∈ opcodeMap, r.row = i.rowNumber ∧ r.selects (encode i) = true

theorem cls : Statement .cls :=
  ⟨⟨1, 0x00E0, 0xFFFF⟩, by decide, rfl, by decide⟩

theorem ret : Statement .ret :=
  ⟨⟨2, 0x00EE, 0xFFFF⟩, by decide, rfl, by decide⟩

theorem jp (nnn : Word) : Statement (.jp nnn) :=
  ⟨⟨3, 0x1000, 0xF000⟩, by decide, rfl, by rw [OpRow.selects, encode, nnn_mask]; rfl⟩

theorem call (nnn : Word) : Statement (.call nnn) :=
  ⟨⟨4, 0x2000, 0xF000⟩, by decide, rfl, by rw [OpRow.selects, encode, nnn_mask]; rfl⟩

theorem seImm (x : RegIx) (kk : Byte) : Statement (.seImm x kk) :=
  ⟨⟨5, 0x3000, 0xF000⟩, by decide, rfl, by rw [OpRow.selects, encode, xkk_mask]; rfl⟩

theorem sneImm (x : RegIx) (kk : Byte) : Statement (.sneImm x kk) :=
  ⟨⟨6, 0x4000, 0xF000⟩, by decide, rfl, by rw [OpRow.selects, encode, xkk_mask]; rfl⟩

theorem seReg (x y : RegIx) : Statement (.seReg x y) :=
  ⟨⟨7, 0x5000, 0xF00F⟩, by decide, rfl, by rw [OpRow.selects, encode, xy_mask]; rfl⟩

theorem ldImm (x : RegIx) (kk : Byte) : Statement (.ldImm x kk) :=
  ⟨⟨8, 0x6000, 0xF000⟩, by decide, rfl, by rw [OpRow.selects, encode, xkk_mask]; rfl⟩

theorem addImm (x : RegIx) (kk : Byte) : Statement (.addImm x kk) :=
  ⟨⟨9, 0x7000, 0xF000⟩, by decide, rfl, by rw [OpRow.selects, encode, xkk_mask]; rfl⟩

theorem ldReg (x y : RegIx) : Statement (.ldReg x y) :=
  ⟨⟨10, 0x8000, 0xF00F⟩, by decide, rfl, by rw [OpRow.selects, encode, xy_mask]; rfl⟩

theorem orReg (x y : RegIx) : Statement (.orReg x y) :=
  ⟨⟨11, 0x8001, 0xF00F⟩, by decide, rfl, by rw [OpRow.selects, encode, xy_mask]; rfl⟩

theorem andReg (x y : RegIx) : Statement (.andReg x y) :=
  ⟨⟨12, 0x8002, 0xF00F⟩, by decide, rfl, by rw [OpRow.selects, encode, xy_mask]; rfl⟩

theorem xorReg (x y : RegIx) : Statement (.xorReg x y) :=
  ⟨⟨13, 0x8003, 0xF00F⟩, by decide, rfl, by rw [OpRow.selects, encode, xy_mask]; rfl⟩

theorem addReg (x y : RegIx) : Statement (.addReg x y) :=
  ⟨⟨14, 0x8004, 0xF00F⟩, by decide, rfl, by rw [OpRow.selects, encode, xy_mask]; rfl⟩

theorem subReg (x y : RegIx) : Statement (.subReg x y) :=
  ⟨⟨15, 0x8005, 0xF00F⟩, by decide, rfl, by rw [OpRow.selects, encode, xy_mask]; rfl⟩

theorem shr (x y : RegIx) : Statement (.shr x y) :=
  ⟨⟨16, 0x8006, 0xF00F⟩, by decide, rfl, by rw [OpRow.selects, encode, xy_mask]; rfl⟩

theorem subnReg (x y : RegIx) : Statement (.subnReg x y) :=
  ⟨⟨17, 0x8007, 0xF00F⟩, by decide, rfl, by rw [OpRow.selects, encode, xy_mask]; rfl⟩

theorem shl (x y : RegIx) : Statement (.shl x y) :=
  ⟨⟨18, 0x800E, 0xF00F⟩, by decide, rfl, by rw [OpRow.selects, encode, xy_mask]; rfl⟩

theorem sneReg (x y : RegIx) : Statement (.sneReg x y) :=
  ⟨⟨19, 0x9000, 0xF00F⟩, by decide, rfl, by rw [OpRow.selects, encode, xy_mask]; rfl⟩

theorem ldI (nnn : Word) : Statement (.ldI nnn) :=
  ⟨⟨20, 0xA000, 0xF000⟩, by decide, rfl, by rw [OpRow.selects, encode, nnn_mask]; rfl⟩

theorem jpV0 (nnn : Word) : Statement (.jpV0 nnn) :=
  ⟨⟨21, 0xB000, 0xF000⟩, by decide, rfl, by rw [OpRow.selects, encode, nnn_mask]; rfl⟩

theorem rnd (x : RegIx) (kk : Byte) : Statement (.rnd x kk) :=
  ⟨⟨22, 0xC000, 0xF000⟩, by decide, rfl, by rw [OpRow.selects, encode, xkk_mask]; rfl⟩

theorem drw (x y : RegIx) (n : Nat) : Statement (.drw x y n) :=
  ⟨⟨23, 0xD000, 0xF000⟩, by decide, rfl, by rw [OpRow.selects, encode, xyn_mask]; rfl⟩

theorem skp (x : RegIx) : Statement (.skp x) :=
  ⟨⟨24, 0xE09E, 0xF0FF⟩, by decide, rfl, by rw [OpRow.selects, encode, x_mask]; rfl⟩

theorem sknp (x : RegIx) : Statement (.sknp x) :=
  ⟨⟨25, 0xE0A1, 0xF0FF⟩, by decide, rfl, by rw [OpRow.selects, encode, x_mask]; rfl⟩

theorem ldVxDT (x : RegIx) : Statement (.ldVxDT x) :=
  ⟨⟨26, 0xF007, 0xF0FF⟩, by decide, rfl, by rw [OpRow.selects, encode, x_mask]; rfl⟩

theorem ldVxK (x : RegIx) : Statement (.ldVxK x) :=
  ⟨⟨27, 0xF00A, 0xF0FF⟩, by decide, rfl, by rw [OpRow.selects, encode, x_mask]; rfl⟩

theorem ldDTVx (x : RegIx) : Statement (.ldDTVx x) :=
  ⟨⟨28, 0xF015, 0xF0FF⟩, by decide, rfl, by rw [OpRow.selects, encode, x_mask]; rfl⟩

theorem ldSTVx (x : RegIx) : Statement (.ldSTVx x) :=
  ⟨⟨29, 0xF018, 0xF0FF⟩, by decide, rfl, by rw [OpRow.selects, encode, x_mask]; rfl⟩

theorem addIVx (x : RegIx) : Statement (.addIVx x) :=
  ⟨⟨30, 0xF01E, 0xF0FF⟩, by decide, rfl, by rw [OpRow.selects, encode, x_mask]; rfl⟩

theorem ldFVx (x : RegIx) : Statement (.ldFVx x) :=
  ⟨⟨31, 0xF029, 0xF0FF⟩, by decide, rfl, by rw [OpRow.selects, encode, x_mask]; rfl⟩

theorem ldBVx (x : RegIx) : Statement (.ldBVx x) :=
  ⟨⟨32, 0xF033, 0xF0FF⟩, by decide, rfl, by rw [OpRow.selects, encode, x_mask]; rfl⟩

theorem storeRegs (x : RegIx) : Statement (.storeRegs x) :=
  ⟨⟨33, 0xF055, 0xF0FF⟩, by decide, rfl, by rw [OpRow.selects, encode, x_mask]; rfl⟩

theorem loadRegs (x : RegIx) : Statement (.loadRegs x) :=
  ⟨⟨34, 0xF065, 0xF0FF⟩, by decide, rfl, by rw [OpRow.selects, encode, x_mask]; rfl⟩

end Sys2Proof.Laws.EncodeSelectsRow
end

