-- ==== Sys2Proof/Tests/Slice0.lean ====
section
/-! SUPPORT. Our own tests: ill-formed instructions refused, words written out from the opcode map, one-step vectors
with the results that spec/95_test_vectors.md gives, and for every statement with hypotheses a witness that meets
them. -/

namespace Sys2Proof.Machine.Tests

open Sys2Proof Sys2Proof.Machine

/-! ### Helpers -/

/-- The next state of an answer. -/
def after : Result → State
  | .next t => t
  | .fault _ => .reset
  | .refused _ => .reset

/-- The answer is a next state. -/
def isNext : Result → Bool
  | .next _ => true
  | .fault _ => false
  | .refused _ => false

/-- The answer is a next state of which `p` holds. -/
def gives (r : Result) (p : State → Bool) : Bool := isNext r && p (after r)

theorem next_after {r : Result} (h : isNext r = true) : r = .next (after r) := by
  cases r with
  | next t => rfl
  | fault f => cases h
  | refused f => cases h

/-- The reset state with a word at 0x200. -/
def word (w : Nat) : State := State.reset.withFetchWord 16 w

/-- The state with bytes stored from an address. -/
def poke (a : Nat) (bytes : List Byte) (s : State) : State := s.setMem (writeBytes s.mem a bytes)

/-- The state with the given bytes in `V[0]`, `V[1]`, … -/
def regs (bytes : List Byte) (s : State) : State := { s with v := .ofFn fun j => bytes.getD j.val 0 }

/-- The state at an address with a word stored there. -/
def wordAt (a : Word) (w : Nat) : State := { State.reset with pc := a }.withFetchWord 16 w

/-- The state with `k` entries 0x202 on the stack. -/
def stacked (k : Fin 17) (s : State) : State := { s with sp := k, stk := .replicate 16 0x202 }

/-- The state with key `k` pressed. -/
def held (k : KeyIx) (s : State) : State := { s with keys := s.keys.set k true }

/-- The state with a pixel on. -/
def lit (px py : Nat) (s : State) : State := s.setFB (flipPixel s.fb (py * 64 + px))

/-- The outcome that reports a fatal error. -/
def haltedBy (e : FatalError) : StepOutcome := ⟨false, true, false, .fatal e⟩

/-- The outcome that reports redraw. -/
def redrawn : StepOutcome := ⟨true, false, false, .noError⟩

/-! ### Ill-formed instructions are refused (R103) -/

theorem test_wf_jp : Instr.wf (.jp 0x1000) = false ∧ Instr.wf (.jp 0xFFF) = true := by decide
theorem test_wf_call : Instr.wf (.call 0x1000) = false ∧ Instr.wf (.call 0xFFF) = true := by decide
theorem test_wf_ldI : Instr.wf (.ldI 0xFFFF) = false ∧ Instr.wf (.ldI 0xFFF) = true := by decide
theorem test_wf_jpV0 : Instr.wf (.jpV0 0x1000) = false ∧ Instr.wf (.jpV0 0xFFF) = true := by decide
theorem test_wf_drw : Instr.wf (.drw 0 0 16) = false ∧ Instr.wf (.drw 0 0 15) = true := by decide

/-! ### Words written out from the patterns of the opcode map (R110) -/

theorem test_decode_fixed : StandsFor 0x00E0 .cls ∧ StandsFor 0x00EE .ret := by
  unfold StandsFor; decide
theorem test_decode_nnn : StandsFor 0x1FFE (.jp 0xFFE) ∧ StandsFor 0x2206 (.call 0x206) ∧
    StandsFor 0xA2F0 (.ldI 0x2F0) ∧ StandsFor 0xB123 (.jpV0 0x123) := by
  unfold StandsFor; decide
theorem test_decode_skips : StandsFor 0x3A1B (.seImm 0xA 0x1B) ∧ StandsFor 0x4A1B (.sneImm 0xA 0x1B) ∧
    StandsFor 0x5120 (.seReg 1 2) ∧ StandsFor 0x9120 (.sneReg 1 2) := by
  unfold StandsFor; decide
theorem test_decode_literals : StandsFor 0x6A02 (.ldImm 0xA 0x02) ∧ StandsFor 0x7350 (.addImm 3 0x50) ∧
    StandsFor 0xC30F (.rnd 3 0x0F) := by
  unfold StandsFor; decide
theorem test_decode_alu : StandsFor 0x8AB0 (.ldReg 0xA 0xB) ∧ StandsFor 0x8AB1 (.orReg 0xA 0xB) ∧
    StandsFor 0x8AB2 (.andReg 0xA 0xB) ∧ StandsFor 0x8AB3 (.xorReg 0xA 0xB) ∧ StandsFor 0x8AB4 (.addReg 0xA 0xB) ∧
    StandsFor 0x8AB5 (.subReg 0xA 0xB) ∧ StandsFor 0x8AB6 (.shr 0xA 0xB) ∧ StandsFor 0x8AB7 (.subnReg 0xA 0xB) ∧
    StandsFor 0x8ABE (.shl 0xA 0xB) := by
  unfold StandsFor; decide
theorem test_decode_draw_keys : StandsFor 0xD125 (.drw 1 2 5) ∧ StandsFor 0xE59E (.skp 5) ∧
    StandsFor 0xE5A1 (.sknp 5) := by
  unfold StandsFor; decide
theorem test_decode_F : StandsFor 0xF307 (.ldVxDT 3) ∧ StandsFor 0xF30A (.ldVxK 3) ∧ StandsFor 0xF115 (.ldDTVx 1) ∧
    StandsFor 0xF118 (.ldSTVx 1) ∧ StandsFor 0xF21E (.addIVx 2) ∧ StandsFor 0xF429 (.ldFVx 4) ∧
    StandsFor 0xF233 (.ldBVx 2) ∧ StandsFor 0xF155 (.storeRegs 1) ∧ StandsFor 0xFE65 (.loadRegs 0xE) := by
  unfold StandsFor; decide
theorem test_decode_unknown : decode 0x0000 = .reject (.unknownOpcode 0x0000) ∧
    decode 0x5121 = .reject (.unknownOpcode 0x5121) ∧ decode 0x912E = .reject (.unknownOpcode 0x912E) ∧
    decode 0x800F = .reject (.unknownOpcode 0x800F) ∧ decode 0xE59F = .reject (.unknownOpcode 0xE59F) ∧
    decode 0xF0FF = .reject (.unknownOpcode 0xF0FF) := by decide
theorem test_decode_bytes : decodeBytes [0x8A, 0xB4, 0x00] = (.instr (.addReg 0xA 0xB), [0x00]) ∧
    decodeBytes [0x8A] = (.reject .incompleteWord, []) := by decide
theorem test_decodeTableWord : decodeTableWord 16 0x8AB4 = some (.addReg 0xA 0xB) ∧ decodeTableWord 16 0x5121 = none := by
  decide
theorem test_encode : encode (.drw 1 2 5) = 0xD125 ∧ encode (.call 0x206) = 0x2206 ∧ encode (.sknp 5) = 0xE5A1 := by
  decide

/-! ### Control flow (vectors V-FL) -/

theorem test_FL1_ret : gives (exec .ret { stacked 1 .reset with pc := 0x212, stk := .replicate 16 0x206 })
    (fun t => t.pc == 0x206 && t.sp == 0) = true := by decide
theorem test_FL2_ret_empty : gives (step (word 0x00EE)) (fun t =>
    t.pc == 0x200 && t.fault == some (.stackUnderflow 0x200) && t.out == haltedBy (.stackUnderflow 0x200)) = true := by
  decide
theorem test_FL3_jp : gives (step (word 0x1228)) (fun t => t.pc == 0x228 && t.out == .quiet) = true := by
  decide
theorem test_FL6_call : gives (step (wordAt 0x204 0x2210)) (fun t =>
    t.pc == 0x210 && t.sp == 1 && t.entry 0 == 0x206) = true := by decide
theorem test_FL7_call_full : gives (step (stacked 16 (word 0x2300))) (fun t =>
    t.pc == 0x200 && t.fault == some (.stackOverflow 0x200) && t.entry 15 == 0x202) = true := by decide
theorem test_FL10_se : gives (step (regs [0, 0, 0, 0x10] (word 0x3310))) (fun t => t.pc == 0x204) = true := by
  decide
theorem test_FL11_se : gives (step (regs [0, 0, 0, 0x10] (word 0x3311))) (fun t => t.pc == 0x202) = true := by
  decide
theorem test_FL13_sne : gives (step (regs [0, 0, 0, 0x10] (word 0x4310))) (fun t => t.pc == 0x202) = true := by
  decide
theorem test_FL14_sne : gives (step (regs [0, 0, 0, 0x10] (word 0x4311))) (fun t => t.pc == 0x204) = true := by
  decide
theorem test_FL15_se_reg : gives (step (regs [0, 7, 7] (word 0x5120))) (fun t => t.pc == 0x204) = true := by
  decide
theorem test_FL16_se_reg : gives (step (regs [0, 7, 8] (word 0x5120))) (fun t => t.pc == 0x202) = true := by
  decide
theorem test_FL18_unknown : gives (step (regs [0, 7, 7] (word 0x5121))) (fun t =>
    t.pc == 0x202 && t.out == ⟨false, false, false, .unknownOpcode 0x5121⟩) = true := by decide
theorem test_FL19_sne_reg : gives (step (regs [0, 7, 8] (word 0x9120))) (fun t => t.pc == 0x204) = true := by
  decide
theorem test_FL20_sne_reg : gives (step (word 0x9110)) (fun t => t.pc == 0x202) = true := by decide
theorem test_FL22_jpV0 : gives (step (regs [0x04] (word 0xB300))) (fun t => t.pc == 0x304) = true := by
  decide
theorem test_FL23_jpV0_far : gives (step (regs [0xFF] (word 0xBFFF))) (fun t => t.pc == 0x10FE) = true := by
  decide
theorem test_FL24_fetch_beyond : gives (step { State.reset with pc := 0x1002 }) (fun t =>
    t.pc == 0x1002 && t.fault == some (.outOfBounds .fetch 0x1002)) = true := by decide
theorem test_FL26_odd_pc : gives (step (wordAt 0x201 0x1234)) (fun t => t.pc == 0x234) = true := by decide

/-! ### Loads and the ALU (vectors V-AL) -/

theorem test_AL1_ld : gives (step (word 0x6A02)) (fun t => t.getV 0xA == 0x02 && t.pc == 0x202) = true := by
  decide
theorem test_AL3_add_wraps : gives (step (regs [0xF0] (word 0x7020))) (fun t =>
    t.getV 0 == 0x10 && t.getV VF == 0) = true := by decide
theorem test_AL7_ld_reg : gives (step (regs [0, 9] (word 0x8010))) (fun t => t.getV 0 == 0x09) = true := by
  decide
theorem test_AL8_or : gives (exec (.orReg 0 1) (regs [0x0F, 0xF0] .reset)) (fun t =>
    t.getV 0 == 0xFF && t.getV 1 == 0xF0) = true := by decide
theorem test_AL9_and : gives (exec (.andReg 0 1) (regs [0x3C, 0x0F] .reset)) (fun t => t.getV 0 == 0x0C) = true := by
  decide
theorem test_AL10_xor : gives (exec (.xorReg 0 1) ((regs [0x3C, 0x0F] .reset).setV VF 0x07)) (fun t =>
    t.getV 0 == 0x33 && t.getV VF == 0x07) = true := by decide
theorem test_AL13_add_carry : gives (exec (.addReg 0 1) (regs [0x80, 0x80] .reset)) (fun t =>
    t.getV 0 == 0x00 && t.getV VF == 0x01) = true := by decide
theorem test_AL16_add_to_VF : gives (exec (.addReg VF 0) ((regs [0x01] .reset).setV VF 0xFF)) (fun t =>
    t.getV VF == 0x01) = true := by decide
theorem test_AL19_sub_equal : gives (exec (.subReg 0 1) (regs [0x03, 0x03] .reset)) (fun t =>
    t.getV 0 == 0x00 && t.getV VF == 0x01) = true := by decide
theorem test_AL20_sub_borrow : gives (exec (.subReg 0 1) (regs [0x00, 0x01] .reset)) (fun t =>
    t.getV 0 == 0xFF && t.getV VF == 0x00) = true := by decide
theorem test_AL22_shr : gives (exec (.shr 1 0) (regs [0xFF, 0x05] .reset)) (fun t =>
    t.getV 1 == 0x02 && t.getV VF == 0x01 && t.getV 0 == 0xFF) = true := by decide
theorem test_AL24_shr_of_VF : gives (exec (.shr VF 0) (State.reset.setV VF 0x03)) (fun t => t.getV VF == 0x01) = true := by
  decide
theorem test_AL25_subn : gives (exec (.subnReg 0 1) (regs [0x03, 0x05] .reset)) (fun t =>
    t.getV 0 == 0x02 && t.getV VF == 0x01) = true := by decide
theorem test_AL26_subn_borrow : gives (exec (.subnReg 0 1) (regs [0x01, 0x00] .reset)) (fun t =>
    t.getV 0 == 0xFF && t.getV VF == 0x00) = true := by decide
theorem test_AL28_shl : gives (exec (.shl 2 0) (regs [0, 0, 0x81] .reset)) (fun t =>
    t.getV 2 == 0x02 && t.getV VF == 0x01) = true := by decide
theorem test_AL29_shl_no_carry : gives (exec (.shl 0 0) ((regs [0x7F] .reset).setV VF 0x01)) (fun t =>
    t.getV 0 == 0xFE && t.getV VF == 0x00) = true := by decide
/-- V-AL-31, where `RAND` is given. -/
theorem test_AL31_rnd : (rndWith 0xA7 3 0x0F .reset).getV 3 = 0x07 ∧ (rndWith 0xA7 3 0x0F .reset).pc = 0x202 := by
  decide
/-- V-AL-32: the mask 0 gives 0 whatever `RAND` is, here through the step with the free value. -/
theorem test_AL32_rnd_masked : (after (exec (.rnd 3 0x00) (State.reset.setV 3 0x55))).getV 3 = 0x00 := by
  simp [after, exec, execRnd, rndWith]

/-! ### The index register and memory blocks (vectors V-IM) -/

theorem test_IM2_ldI : gives (step (word 0xAFFF)) (fun t => t.i == 0xFFF && t.pc == 0x202) = true := by
  decide
theorem test_IM4_addI_wraps : gives (exec (.addIVx 0) ((regs [0x01] .reset).setI 0xFFF)) (fun t => t.i == 0x000) = true := by
  decide
theorem test_IM5_addI_no_flag : gives (exec (.addIVx VF) ((State.reset.setV VF 0x20).setI 0x100)) (fun t =>
    t.i == 0x120 && t.getV VF == 0x20) = true := by decide
theorem test_IM6_ldF : gives (exec (.ldFVx 4) (State.reset.setV 4 0x0A)) (fun t => t.i == 0x032) = true := by
  decide
theorem test_IM7_ldF_high : gives (exec (.ldFVx 0) (State.reset.setV 0 0xFF)) (fun t => t.i == 0x4FB) = true := by
  decide
theorem test_IM8_bcd : gives (exec (.ldBVx 2) ((State.reset.setV 2 0xFE).setI 0x300)) (fun t =>
    t.byteAt 0x300 == 2 && t.byteAt 0x301 == 5 && t.byteAt 0x302 == 4 && t.i == 0x300) = true := by decide
theorem test_IM11_bcd_beyond : gives (exec (.ldBVx 0) ((State.reset.setV 0 0xFF).setI 0xFFE)) (fun t =>
    t.fault == some (.outOfBounds .data 0x1000) && t.byteAt 0xFFE == 0) = true := by decide
theorem test_IM12_store : gives (exec (.storeRegs 1) ((regs [1, 2, 3] .reset).setI 0x300)) (fun t =>
    t.byteAt 0x300 == 1 && t.byteAt 0x301 == 2 && t.byteAt 0x302 == 0 && t.i == 0x300) = true := by decide
theorem test_IM14_store_beyond : gives (exec (.storeRegs VF) (State.reset.setI 0xFF1)) (fun t =>
    t.out == haltedBy (.outOfBounds .data 0x1000)) = true := by decide
theorem test_IM16_load_font : gives (exec (.loadRegs VF) State.reset) (fun t =>
    t.getV 0 == 0xF0 && t.getV 6 == 0x60 && t.getV VF == 0xF0) = true := by decide
theorem test_IM19_load_one : gives (exec (.loadRegs 0) ((poke 0x300 [0xAB] (regs [0, 0x11] .reset)).setI 0x300))
    (fun t => t.getV 0 == 0xAB && t.getV 1 == 0x11) = true := by decide

/-! ### The framebuffer (vectors V-DS) -/

theorem test_DS1_cls : gives (exec .cls (lit 63 31 (lit 0 0 .reset))) (fun t =>
    t.fb == clearFB && t.out == redrawn) = true := by decide
/-- A full byte at (60, 0) wraps to columns 0 to 3. -/
def wrapped : State := (poke 0x300 [0xFF] (regs [60, 0] .reset)).setI 0x300
theorem test_DS3_wrap : gives (exec (.drw 0 1 1) wrapped) (fun t =>
    (List.range 64).all (fun px => t.pixel px 0 == (px < 4 || 60 ≤ px)) && t.getV VF == 0 && t.out == redrawn) = true := by
  decide
theorem test_DS5_collision : gives (exec (.drw 0 0 5) (lit 0 0 .reset)) (fun t =>
    !t.pixel 0 0 && t.pixel 1 0 && t.pixel 3 4 && !t.pixel 1 1 && t.getV VF == 1) = true := by decide
theorem test_DS9_coordinate_in_VF : gives (exec (.drw VF 0 1)
    ((lit 10 3 (poke 0x300 [0xC0] ((regs [3] .reset).setV VF 10))).setI 0x300)) (fun t =>
    !t.pixel 10 3 && t.pixel 11 3 && t.getV VF == 1) = true := by decide
/-- Log entry 14: where a covered pixel was on, and it alone, the second draw does not collide. -/
theorem test_second_draw_need_not_collide : gives (exec (.drw 0 1 1) (lit 10 5 (poke 0x300 [0x80]
      ((regs [10, 5] .reset).setI 0x300)))) (fun t =>
    t.getV VF == 1 && gives (exec (.drw 0 1 1) t) (fun u => u.getV VF == 0 && u.pixel 10 5)) = true := by
  decide

/-! ### Keys, the wait and the timers (vectors V-KT) -/

theorem test_KT1_skp : gives (exec (.skp 5) (held 0xA (State.reset.setV 5 0x0A))) (fun t => t.pc == 0x204) = true := by
  decide
theorem test_KT5_skp_bad_index : gives (exec (.skp 5) (State.reset.setV 5 0x10)) (fun t =>
    t.pc == 0x200 && t.fault == some (.invalidKeyIndex 0x10)) = true := by decide
theorem test_KT3_sknp : gives (exec (.sknp 5) (State.reset.setV 5 0x0A)) (fun t => t.pc == 0x204) = true := by
  decide
theorem test_KT4_sknp : gives (exec (.sknp 5) (held 0xA (State.reset.setV 5 0x0A))) (fun t => t.pc == 0x202) = true := by
  decide
theorem test_KT8_read_DT : gives (exec (.ldVxDT 3) (State.reset.setDT 0x3C)) (fun t => t.getV 3 == 0x3C) = true := by
  decide
theorem test_KT9_write_DT : gives (exec (.ldDTVx 1) (State.reset.setV 1 60)) (fun t => t.dt == 0x3C && t.st == 0) = true := by
  decide
theorem test_KT10_write_ST : gives (exec (.ldSTVx 1) (State.reset.setV 1 5)) (fun t => t.st == 0x05 && t.dt == 0) = true := by
  decide
theorem test_KT11_wait : gives (step (wordAt 0x210 0xF30A)) (fun t =>
    t.pc == 0x210 && t.wait == .waiting 3 none && t.out == ⟨false, false, true, .noError⟩) = true := by
  decide
theorem test_KT12_press : gives (step (({ State.reset with pc := 0x210, wait := .waiting 3 none }.perform (.setKey 7 true)).2))
    (fun t => t.getV 3 == 7 && t.pc == 0x212 && t.wait == .idle && t.keys[7]) = true := by decide

/-! ### The host's calls (vectors V-KT, V-HO, V-LI) -/

theorem test_KT15_first_press_wins : ({ State.reset with wait := .waiting 3 none }.performAll
    [.setKey 4 true, .setKey 9 true, .setKey 4 false]).wait = .waiting 3 (some 4) := by decide
theorem test_KT17_tick : ({ State.reset with dt := 2, st := 1 }.performAll [.tickTimers, .tickTimers]).dt = 0 ∧
    ({ State.reset with dt := 2, st := 1 }.performAll [.tickTimers, .tickTimers]).st = 0 := by decide
theorem test_HO1_bad_key : State.reset.perform (.setKey 16 true) = (.failed .invalidKeyIndex, .reset) := by
  decide
theorem test_HO3_latched : gives (step { word 0x6001 with fault := some (.stackUnderflow 0x200) }) (fun t =>
    t.getV 0 == 0 && t.pc == 0x200 && t.out == haltedBy (.stackUnderflow 0x200)) = true := by decide
theorem test_HO5_zero_word : gives (step State.reset) (fun t =>
    t.pc == 0x202 && t.out == ⟨false, false, false, .unknownOpcode 0x0000⟩) = true := by decide
theorem test_LI2_image : let t := (State.reset.perform (.loadImage [0xAB, 0xCD])).2
    t.byteAt 0x200 = 0xAB ∧ t.byteAt 0x201 = 0xCD ∧ t.byteAt 0x202 = 0 ∧ t.pc = 0x200 := by decide
theorem test_LI4_too_large (bytes : List Byte) (h : bytes.length = 3585) :
    State.reset.perform (.loadImage bytes) = (.failed .imageTooLarge, .reset) := by
  simp [State.perform, State.loadImage, State.callResult, Config.imageMax, Config.imageBase, Config.memSize, h]

/-! ### Witnesses: concrete states and operands that meet the hypotheses of each statement -/

/-- Running at 0x200 before `6A02`, with an entry on the stack, a key held and registers of many values. -/
def sample : State := held 2 (stacked 1 ((regs [0x0F, 0x10, 0xFE, 0x80] (word 0x6A02)).setI 0xFFF))

/-- A state whose fault latch holds `e`. -/
def faulted (e : FatalError) (s : State) : State := { s with fault := some e }

/-- A state that waits for a key into `V[3]`, with the key captured so far. -/
def waitingFor (k : Option KeyIx) : State := { wordAt 0x210 0xF30A with wait := .waiting 3 k }

/-- The invariant of a running state, from what is decided of it. -/
theorem inv_of_running {s : State} (h : s.mem.wf ∧ s.i.toNat ≤ 0xFFF ∧ s.pc.toNat < 0xFFF ∧
    (∀ k, k < s.sp.val → (s.entry k).toNat ≤ 0x1000) ∧ s.fault = none) : s.Inv where
  memory := h.1
  index := h.2.1
  pc := by have := h.2.2.1; omega
  returns := h.2.2.2.1
  waitAddress := fun _ => h.2.2.1
  waitExcludesFault := .inr h.2.2.2.2
  records := fun e he => by rw [h.2.2.2.2] at he; cases he

/-- The invariant of a state with a latched fault. -/
theorem inv_of_faulted {s : State} {e : FatalError} (h : s.mem.wf ∧ s.i.toNat ≤ 0xFFF ∧ s.pc.toNat ≤ 0x10FE ∧
    (∀ k, k < s.sp.val → (s.entry k).toNat ≤ 0x1000) ∧ s.wait = .idle) (hr : s.Records e) : (faulted e s).Inv where
  memory := h.1
  index := h.2.1
  pc := h.2.2.1
  returns := h.2.2.2.1
  waitAddress := fun hw => absurd h.2.2.2.2 hw
  waitExcludesFault := .inl h.2.2.2.2
  records := fun e' he => by cases he; cases e <;> exact hr

theorem sample_inv : sample.Inv := inv_of_running (by decide)
theorem witness_waiting_inv : (waitingFor none).Inv := inv_of_running (by decide)
theorem witness_captured_inv : (waitingFor (some 15)).Inv := inv_of_running (by decide)
theorem witness_fetch_fault_inv : (faulted (.outOfBounds .fetch 0xFFF) { State.reset with pc := 0xFFF }).Inv :=
  inv_of_faulted (by decide) (by unfold State.Records; decide)
theorem witness_data_fault_inv : (faulted (.outOfBounds .data 0x1000) (State.reset.setI 0xFFF)).Inv :=
  inv_of_faulted (by decide) rfl
theorem witness_overflow_inv : (faulted (.stackOverflow 0x200) (stacked 16 .reset)).Inv :=
  inv_of_faulted (by decide) (by unfold State.Records; decide)
theorem witness_underflow_inv : (faulted (.stackUnderflow 0x200) .reset).Inv :=
  inv_of_faulted (by decide) (by unfold State.Records; decide)
theorem witness_key_fault_inv : (faulted (.invalidKeyIndex 0x10) (State.reset.setV 5 0x10)).Inv :=
  inv_of_faulted (by decide) ⟨by decide, 5, by decide⟩

theorem witness_StepKeepsTheInvariant : sample.Inv ∧ step sample = .next (after (step sample)) :=
  ⟨sample_inv, next_after (by decide)⟩
theorem witness_EveryRunKeepsTheInvariant : sample.Inv := sample_inv
theorem witness_DecodeOfEncodeIsTheInstruction : Instr.wf (.jp 0xFFF) = true ∧ Instr.wf (.drw 15 15 15) = true := by decide
theorem witness_EncodeOfDecodeIsTheWord : decode 0xDFFF = .instr (.drw 15 15 15) := by decide
theorem witness_DecodeFollowsTheOpcodeMap : (⟨1, 0x00E0, 0xFFFF⟩ ∈ opcodeMap ∧ OpRow.selects ⟨1, 0x00E0, 0xFFFF⟩ 0x00E0 = true) ∧
    ∀ r ∈ opcodeMap, r.selects 0x8008 = false := by decide

/-- A running state about to fetch at an address. -/
theorem fetches_of {s : State} (h : s.fault = none ∧ s.wait = .idle ∧ s.pc.toNat < 0xFFF) : s.Fetches :=
  ⟨⟨h.1, h.2.1⟩, h.2.2⟩
theorem runs_of {s : State} {i : Instr}
    (h : (s.fault = none ∧ s.wait = .idle ∧ s.pc.toNat < 0xFFF) ∧ decode s.fetchWord = .instr i) : s.Runs i :=
  ⟨fetches_of h.1, h.2⟩

theorem witness_UnknownWordsAreReportedAndPassed : (wordAt 0xFFE 0x0123).Fetches ∧
    decode (wordAt 0xFFE 0x0123).fetchWord = .reject (.unknownOpcode 0x0123) := ⟨fetches_of (by decide), by decide⟩
theorem witness_StepRunsTheDecodedInstruction : sample.Runs (.ldImm 0xA 0x02) := runs_of (by decide)
theorem witness_StepRunsAtTheLastWord : (wordAt 0xFFE 0xFF55).Runs (.storeRegs VF) := runs_of (by decide)
theorem witness_LatchedFaultChangesNothing : (faulted (.stackUnderflow 0x200) .reset).fault = some (.stackUnderflow 0x200) := rfl
theorem witness_PendingWaitStepDoesNotFetch : ((waitingFor none).fault = none ∧ (waitingFor none).wait = .waiting 3 none) ∧
    (waitingFor (some 15)).fault = none ∧ (waitingFor (some 15)).wait = .waiting 3 (some 15) := by decide
theorem witness_FetchBeyondMemoryIsFatal : ({ State.reset with pc := 0xFFF } : State).Running ∧
    0xFFF ≤ ({ State.reset with pc := 0xFFF } : State).pc.toNat := ⟨⟨rfl, rfl⟩, by decide⟩
theorem witness_OutcomeFieldsSayWhatHappened : step (word 0x00E0) = .next (after (step (word 0x00E0))) ∧
    step (word 0xF30A) = .next (after (step (word 0xF30A))) := ⟨next_after (by decide), next_after (by decide)⟩
theorem witness_FatalErrorsArePrecise : (word 0x00EE).fault = none ∧ step (word 0x00EE) = .next (after (step (word 0x00EE))) ∧
    (after (step (word 0x00EE))).fault = some (.stackUnderflow 0x200) := ⟨by decide, next_after (by decide), by decide⟩
theorem witness_FaultStaysUntilReset : (faulted (.stackUnderflow 0x200) .reset).fault = some (.stackUnderflow 0x200) ∧
    HostCall.initAll ∉ [.stepOnce, .tickTimers, .setKey 1 true, .loadImage [0xAB]] := by decide

/-- Each kind of data access, the lowest address beyond memory being 0x1000. -/
theorem witness_DataAccessBeyondMemoryIsFatal_draw_beyond : (∃ x y, Instr.drw 0 1 2 = .drw x y 2) ∧ (State.reset.setI 0xFFF).i.toNat ≤ 0x1000 ∧
    0x1000 < (State.reset.setI 0xFFF).i.toNat + 2 ∧
    ∀ b, (State.reset.setI 0xFFF).i.toNat ≤ b → b < (State.reset.setI 0xFFF).i.toNat + 2 → 4096 ≤ b → 0x1000 ≤ b :=
  ⟨⟨0, 1, rfl⟩, by decide, by decide, fun _ _ _ h => h⟩
theorem witness_DataAccessBeyondMemoryIsFatal_draw_inside : (∃ x y, Instr.drw 0 1 1 = .drw x y 1) ∧
    ∀ a, (State.reset.setI 0xFFF).i.toNat ≤ a → a < (State.reset.setI 0xFFF).i.toNat + 1 → a < 4096 :=
  ⟨⟨0, 1, rfl⟩, fun _ _ h => h⟩
theorem witness_DataAccessBeyondMemoryIsFatal_bcd_beyond : (∃ x, Instr.ldBVx 2 = .ldBVx x ∧ 3 = 3) ∧ (State.reset.setI 0xFFE).i.toNat ≤ 0x1000 ∧
    0x1000 < (State.reset.setI 0xFFE).i.toNat + 3 ∧
    ∀ b, (State.reset.setI 0xFFE).i.toNat ≤ b → b < (State.reset.setI 0xFFE).i.toNat + 3 → 4096 ≤ b → 0x1000 ≤ b :=
  ⟨⟨2, rfl, rfl⟩, by decide, by decide, fun _ _ _ h => h⟩
theorem witness_DataAccessBeyondMemoryIsFatal_bcd_inside : (∃ x, Instr.ldBVx 2 = .ldBVx x ∧ 3 = 3) ∧
    ∀ a, (State.reset.setI 0xFFD).i.toNat ≤ a → a < (State.reset.setI 0xFFD).i.toNat + 3 → a < 4096 :=
  ⟨⟨2, rfl, rfl⟩, fun _ _ h => h⟩
theorem witness_DataAccessBeyondMemoryIsFatal_block_beyond : (∃ x : RegIx, (Instr.storeRegs VF = .storeRegs x ∨ Instr.storeRegs VF = .loadRegs x) ∧ 16 = x.val + 1) ∧ (State.reset.setI 0xFF1).i.toNat ≤ 0x1000 ∧
    0x1000 < (State.reset.setI 0xFF1).i.toNat + 16 ∧
    ∀ b, (State.reset.setI 0xFF1).i.toNat ≤ b → b < (State.reset.setI 0xFF1).i.toNat + 16 → 4096 ≤ b → 0x1000 ≤ b :=
  ⟨⟨VF, .inl rfl, rfl⟩, by decide, by decide, fun _ _ _ h => h⟩
theorem witness_DataAccessBeyondMemoryIsFatal_block_inside : (∃ x : RegIx, (Instr.loadRegs VF = .storeRegs x ∨ Instr.loadRegs VF = .loadRegs x) ∧ 16 = x.val + 1) ∧
    ∀ a, (State.reset.setI 0xFF0).i.toNat ≤ a → a < (State.reset.setI 0xFF0).i.toNat + 16 → a < 4096 :=
  ⟨⟨VF, .inr rfl, rfl⟩, fun _ _ h => h⟩

theorem witness_JumpSetsThePc : 0xFFF < 4096 ∧ State.reset.Running := ⟨by decide, rfl, rfl⟩
theorem witness_JumpWithOffsetAddsV0 : 0xFFF < 4096 ∧ (regs [0xFF] .reset).Running ∧
    0xFFF ≤ (after (exec (.jpV0 0xFFF) (regs [0xFF] .reset))).pc.toNat := ⟨by decide, ⟨rfl, rfl⟩, by decide⟩
theorem witness_CallPushesTheReturnAddress : 0xFFF < 4096 ∧ (stacked 15 .reset).sp.val < 16 ∧ (stacked 16 .reset).sp.val = 16 := by
  decide
/-- A state that returns to 0x1000, as after a call at 0xFFE. -/
def returning : State := { stacked 1 .reset with stk := .replicate 16 0x1000 }
theorem witness_ReturnPopsIntoThePc : (0 < returning.sp.val ∧ returning.Running ∧
    0xFFF ≤ (after (exec .ret returning)).pc.toNat) ∧ State.reset.sp.val = 0 :=
  ⟨⟨by decide, ⟨rfl, rfl⟩, by decide⟩, by decide⟩
theorem witness_ReturnUndoesCall : (stacked 15 .reset).sp.val < 16 ∧
    (let t := after (exec (.call 0x300) (stacked 15 .reset))
     (t.goto 0x300).sp = t.sp ∧ (t.goto 0x300).stk = t.stk) := ⟨by decide, rfl, rfl⟩
theorem witness_ComparisonsSkipTwoBytes : (sample.getV 0 = 0x0F ∧ sample.getV 0 ≠ 0x10 ∧ sample.getV 4 = sample.getV 5 ∧
    sample.getV 0 ≠ sample.getV 1) ∧ (0 < 1 ∧ 15 < 16) := by decide
theorem witness_SkipsWhen_fetch_fails : (wordAt 0xFFE 0x3000).Running ∧
    0xFFF ≤ (after (exec (.seImm 0 0x00) (wordAt 0xFFE 0x3000))).pc.toNat := ⟨⟨rfl, rfl⟩, by decide⟩
theorem witness_DefaultAdvanceIsTwo : sample.fault = none ∧ exec (.seImm 0 0x0F) sample = .next (after (exec (.seImm 0 0x0F) sample)) ∧
    (after (exec (.seImm 0 0x0F) sample)).fault = none := ⟨by decide, next_after (by decide), by decide⟩
theorem witness_SetsRegisterAndFlag_other_register : (3 : RegIx) ≠ VF := by decide
theorem witness_OnlyRndReadsTheRandomByte : step sample = .next (after (step sample)) ∧ ∀ x kk, ¬ sample.Runs (.rnd x kk) := by
  refine ⟨next_after (by decide), fun x kk h => ?_⟩
  have hd : decode sample.fetchWord = .instr (.ldImm 0xA 0x02) := by decide
  have := h.2
  rw [hd] at this
  cases this
theorem witness_VfChangesOnlyAsFlagOrDestination :
    exec (.addReg 2 3) sample = .next (after (exec (.addReg 2 3) sample)) ∧
    (after (exec (.addReg 2 3) sample)).getV VF ≠ sample.getV VF := ⟨next_after (by decide), by decide⟩
theorem witness_IndexRegisterIsSet : 0xFFF < 4096 := by decide
theorem witness_DecimalDigitsAreStored : (State.reset.setI 0xFFD).i.toNat < 0xFFE ∧ 0xFFE ≤ (State.reset.setI 0xFFE).i.toNat ∧
    (State.reset.setI 0xFFF).i.toNat ≤ 0xFFF := by decide
theorem witness_RegistersAreStored : (State.reset.setI 0xFF0).i.toNat + VF.val < 4096 ∧ (0 : RegIx) ≤ VF ∧
    4096 ≤ (State.reset.setI 0xFF1).i.toNat + VF.val ∧ (State.reset.setI 0xFF1).i.toNat ≤ 0xFFF := by decide
theorem witness_RegistersAreLoaded : (State.reset.setI 0xFFF).i.toNat + (0 : RegIx).val < 4096 ∧ (0 : RegIx) < VF ∧
    4096 ≤ (State.reset.setI 0xFFF).i.toNat + (1 : RegIx).val := by decide
theorem witness_IndexRegisterHasThreeWriters : exec (.ldI 5) sample = .next (after (exec (.ldI 5) sample)) ∧
    (after (exec (.ldI 5) sample)).i ≠ sample.i := ⟨rfl, by decide⟩
theorem witness_MemoryHasTwoWriters : exec (.storeRegs 0) sample = .next (after (exec (.storeRegs 0) sample)) ∧
    (after (exec (.storeRegs 0) sample)).byteAt 0xFFF ≠ sample.byteAt 0xFFF := ⟨rfl, by decide⟩
/-- The bytes stored at 0x300 on are fetched as a word from there. -/
def stored : State := after (exec (.storeRegs 1) ((regs [0x60, 0x2A] .reset).setI 0x300))
theorem witness_FetchSeesTheStore : ((regs [0x60, 0x2A] .reset).setI 0x300).i.toNat + (1 : RegIx).val < 4096 ∧
    (1 : RegIx).val = (0 : RegIx).val + 1 ∧ (1 : RegIx) ≤ 1 ∧
    (stored.goto 0x300).mem = stored.mem ∧ (stored.goto 0x300).pc.toNat = 0x300 + (0 : RegIx).val := by decide
theorem witness_ClearTurnsEveryPixelOff : (lit 63 31 .reset).pixel 63 31 = true := by decide
theorem witness_DrawFlipsTheCoveredPixels : (15 < 16 ∧ (State.reset.setI 0xFF1).i.toNat + 15 ≤ 4096) ∧
    (∃ px py, px < 64 ∧ py < 32 ∧ Covers (lit 0 0 .reset) 0 0 5 px py ∧ (lit 0 0 State.reset).pixel px py = true) ∧
    ¬ ∃ px py, px < 64 ∧ py < 32 ∧ Covers (lit 0 0 .reset) 0 0 0 px py ∧ (lit 0 0 State.reset).pixel px py = true :=
  ⟨by decide, ⟨0, 0, by decide, by decide, ⟨0, 0, by decide⟩, by decide⟩, fun ⟨_, _, _, _, ⟨_, _, h, _⟩, _⟩ => absurd h (Nat.not_lt_zero _)⟩
theorem witness_DrawingTwiceRestoresThePixels : (pixelIndex 60 0 0 7 = pixelIndex 124 32 0 7) ∧
    gives (exec (.drw 0 1 1) wrapped) (fun t => t.getV 0 == wrapped.getV 0 && t.getV 1 == wrapped.getV 1) = true ∧
    (∃ px py, px < 64 ∧ py < 32 ∧ Covers wrapped 0 1 1 px py ∧ wrapped.pixel px py = false) ∧
    ¬ ∃ px py, px < 64 ∧ py < 32 ∧ Covers wrapped 0 1 0 px py ∧ wrapped.pixel px py = false :=
  ⟨by decide, by decide, ⟨3, 0, by decide, by decide, ⟨0, 7, by decide⟩, by decide⟩,
    fun ⟨_, _, _, _, ⟨_, _, h, _⟩, _⟩ => absurd h (Nat.not_lt_zero _)⟩
theorem witness_FramebufferHasTwoWriters : exec .cls (lit 0 0 sample) = .next (after (exec .cls (lit 0 0 sample))) ∧
    (after (exec .cls (lit 0 0 sample))).fb ≠ (lit 0 0 sample).fb := ⟨rfl, by decide⟩
theorem witness_KeyTestsSkipOnTheLatch : (sample.getV 0).toNat = (15 : KeyIx).val ∧ 0xF < (sample.getV 1).toNat := by decide
theorem witness_KeyWaitCompletesAtAPress : sample.keys[(2 : KeyIx)] = true ∧ sample.keys[(15 : KeyIx)] = false ∧
    sample.fault = none := by decide
theorem witness_StepsLeaveKeysAndTimersAlone :
    step (regs [0, 60] (word 0xF115)) = .next (after (step (regs [0, 60] (word 0xF115)))) ∧
    (after (step (regs [0, 60] (word 0xF115)))).dt ≠ (regs [0, 60] (word 0xF115)).dt ∧
    step (regs [0, 60] (word 0xF118)) = .next (after (step (regs [0, 60] (word 0xF118)))) ∧
    (after (step (regs [0, 60] (word 0xF118)))).st ≠ (regs [0, 60] (word 0xF118)).st :=
  ⟨next_after (by decide), by decide, next_after (by decide), by decide⟩
theorem witness_SetKeyUpdatesTheLatch : ((15 : Int) = (15 : KeyIx).val ∧ (0 : Int) = (0 : KeyIx).val) ∧
    ((-1 : Int) < 0 ∧ 15 < (16 : Int)) ∧
    ((waitingFor none).keys[(15 : KeyIx)] = false ∧ (waitingFor none).wait = .waiting 3 none) ∧
    sample.keys[(2 : KeyIx)] = true := by decide
theorem witness_SetKey_other_call : HostCall.stepOnce ≠ .initAll ∧ ∀ k b, HostCall.stepOnce ≠ .setKey k b := ⟨nofun, nofun⟩
theorem witness_GettersChangeNothing : HostCall.tickTimers ≠ .initAll ∧ HostCall.tickTimers ≠ .stepOnce := by decide
theorem witness_SetKey_no_wait_pending (x : RegIx) : sample.wait ≠ .waiting x none := by
  have h : sample.wait = .idle := by decide
  rw [h]; exact nofun
theorem witness_ImageIsLoadedVerbatim : (List.replicate 3584 (0xAB : Byte)).length ≤ 3584 ∧
    3583 < (List.replicate 3584 (0xAB : Byte)).length ∧ 3584 < (List.replicate 3585 (0xAB : Byte)).length := by
  rw [List.length_replicate, List.length_replicate]
  omega
theorem witness_EntriesAboveSpAreNeverRead :
    SameBelowSP sample { sample with stk := sample.stk.set 1 0x0FFF } ∧ step sample = .next (after (step sample)) :=
  ⟨⟨rfl, by decide⟩, next_after (by decide)⟩
/-- Before a call at 0x204. -/
def calling : State := stacked 1 (wordAt 0x204 0x2300)
theorem witness_StackHasTwoWriters : exec (.call 0x300) calling = .next (after (exec (.call 0x300) calling)) ∧
    (after (exec (.call 0x300) calling)).sp ≠ calling.sp ∧ (after (exec (.call 0x300) calling)).stk ≠ calling.stk :=
  ⟨next_after (by decide), by decide, by decide⟩

end Sys2Proof.Machine.Tests
end

section
/-! PROOFS. What a step can do, said once; which parts of the state an instruction can write; the operations under
which the invariant is kept. From these the statements about the state as a whole. -/

namespace Sys2Proof.Machine

/-! ### What a step can do (R150) -/

/-- The ways a step goes from `s` to a next state, in the priority order of R364. -/
inductive StepCase (s : State) : State → Prop where
  | latched (e : FatalError) (hfault : s.fault = some e) : StepCase s (s.reportFault e)
  | pending (x : RegIx) (hfault : s.fault = none) (hwait : s.wait = .waiting x none) : StepCase s s.reportWaiting
  | completed (x : RegIx) (k : KeyIx) (hfault : s.fault = none) (hwait : s.wait = .waiting x (some k)) :
      StepCase s (s.completeWait x k)
  | fetchBeyond (hrun : s.Running) (hpc : 0xFFF ≤ s.pc.toNat) :
      StepCase s (s.fatal (.outOfBounds .fetch s.pc.toNat))
  | unknown (r : Reject) (hfetch : s.Fetches) (hdecode : decode s.fetchWord = .reject r) :
      StepCase s (s.reportUnknown s.fetchWord)
  | ran (i : Instr) (t : State) (hruns : s.Runs i) (hexec : exec i s = .next t) : StepCase s t

/-- A step that answers a next state went one of these ways. -/
theorem step_cases {s t : State} (h : step s = .next t) : StepCase s t := by
  unfold step at h
  split at h
  next e hfault =>
    cases h
    exact .latched e hfault
  next hfault =>
    split at h
    next x hwait =>
      cases h
      exact .pending x hfault hwait
    next x k hwait =>
      cases h
      exact .completed x k hfault hwait
    next hwait =>
      split at h
      next hpc =>
        have hfetch : s.Fetches := ⟨⟨hfault, hwait⟩, by simpa [State.fetchable] using hpc⟩
        unfold State.runWord at h
        split at h
        next i hdecode => exact .ran i t ⟨hfetch, hdecode⟩ h
        next r hdecode =>
          cases h
          exact .unknown r hfetch hdecode
      next hpc =>
        cases h
        exact .fetchBeyond ⟨hfault, hwait⟩ (by simpa [State.fetchable] using hpc)

/-- What is shown of some next state of an answer holds of the next state it gives. -/
theorem of_exists_next {r : Result} {P : State → Prop} {t : State} (h : ∃ u, r = .next u ∧ P u)
    (ht : r = .next t) : P t := by
  obtain ⟨u, hu, hP⟩ := h
  cases hu.symm.trans ht
  exact hP

/-! ### The instructions whose meaning branches -/

/-- The two ends of `00EE` (R170). -/
theorem execRet_cases (s : State) :
    (∃ v t, s.pop = some (v, t) ∧ execRet s = .next (t.goto v)) ∨
      (s.sp.val = 0 ∧ execRet s = .next (s.fatal (.stackUnderflow s.pc))) := by
  unfold execRet
  split
  next v t hpop => exact .inl ⟨v, t, hpop, rfl⟩
  next hpop => exact .inr ⟨pop_eq_none.mp hpop, rfl⟩

/-- The two ends of `2nnn` (R172). -/
theorem execCall_cases (nnn : Word) (s : State) :
    (∃ t, s.push s.npc = some t ∧ execCall nnn s = .next (t.goto nnn)) ∨
      (s.sp.val = 16 ∧ execCall nnn s = .next (s.fatal (.stackOverflow s.pc))) := by
  unfold execCall
  split
  next t hpush => exact .inl ⟨t, hpush, rfl⟩
  next hpush => exact .inr ⟨push_eq_none.mp hpush, rfl⟩

/-- The two ends of a key test that skips when `wanted` holds of the key that `V[x]` names (R300 to R302). -/
def KeyTestEnds (wanted : Bool → Bool) (x : RegIx) (s : State) (r : Result) : Prop :=
  (∃ k : KeyIx, (s.getV x).toNat = k.val ∧ r = .next (s.skipIf (wanted s.keys[k]))) ∨
    (0xF < (s.getV x).toNat ∧ r = .next (s.fatal (.invalidKeyIndex (s.getV x))))

theorem execSkp_ends (x : RegIx) (s : State) : KeyTestEnds id x s (execSkp x s) := by
  unfold execSkp
  split
  next k hkey => exact .inl ⟨k, keyOf_eq_some.mp hkey, rfl⟩
  next hkey => exact .inr ⟨keyOf_eq_none.mp hkey, rfl⟩

theorem execSknp_ends (x : RegIx) (s : State) : KeyTestEnds Bool.not x s (execSknp x s) := by
  unfold execSknp
  split
  next k hkey => exact .inl ⟨k, keyOf_eq_some.mp hkey, rfl⟩
  next hkey => exact .inr ⟨keyOf_eq_none.mp hkey, rfl⟩

/-! ### The frame of each operation -/

theorem OnlyChanges.trans {ps qs : List Part} {s t u : State} (h₁ : OnlyChanges ps s t) (h₂ : OnlyChanges qs t u) :
    OnlyChanges (ps ++ qs) s u := by
  intro p hp
  simp only [List.mem_append, not_or] at hp
  have h₁ := h₁ p hp.1
  have h₂ := h₂ p hp.2
  cases p <;> simp_all [Part.Same]

theorem OnlyChanges.mono {ps qs : List Part} {s t : State} (h : OnlyChanges ps s t) (hsub : ps ⊆ qs) :
    OnlyChanges qs s t :=
  fun p hp => h p fun hmem => hp (hsub hmem)

section frames
variable (s : State)

theorem setV_frame (x : RegIx) (b : Byte) : OnlyChanges [.regs] s (s.setV x b) :=
  onlyChanges_of_eq fun p hp => by cases p <;> simp_all

theorem setResultFlag_frame (x : RegIx) (p : Byte × Bool) : OnlyChanges [.regs] s (s.setResultFlag x p) :=
  onlyChanges_of_eq fun p hp => by cases p <;> simp_all

theorem setRegsUpTo_frame (x : RegIx) (f : Nat → Byte) : OnlyChanges [.regs] s (s.setRegsUpTo x f) :=
  onlyChanges_of_eq fun p hp => by cases p <;> simp_all

theorem setI_frame (w : Word) : OnlyChanges [.index] s (s.setI w) :=
  onlyChanges_of_eq fun p hp => by cases p <;> simp_all

theorem setDT_frame (b : Byte) : OnlyChanges [.dt] s (s.setDT b) :=
  onlyChanges_of_eq fun p hp => by cases p <;> simp_all

theorem setST_frame (b : Byte) : OnlyChanges [.st] s (s.setST b) :=
  onlyChanges_of_eq fun p hp => by cases p <;> simp_all

theorem setMem_frame (m : Memory) : OnlyChanges [.mem] s (s.setMem m) :=
  onlyChanges_of_eq fun p hp => by cases p <;> simp_all

theorem setFB_frame (f : Framebuffer) : OnlyChanges [.fb] s (s.setFB f) :=
  onlyChanges_of_eq fun p hp => by cases p <;> simp_all

theorem goto_frame (w : Word) : OnlyChanges [.pc] s (s.goto w) :=
  onlyChanges_of_eq fun p hp => by cases p <;> simp_all

theorem advance_frame : OnlyChanges [.pc] s s.advance := goto_frame s s.npc

theorem skipIf_frame (c : Bool) : OnlyChanges [.pc] s (s.skipIf c) := goto_frame s _

theorem signalRedraw_frame : OnlyChanges [] s s.signalRedraw :=
  onlyChanges_of_eq fun p _ => by cases p <;> simp

theorem fatal_frame (e : FatalError) : OnlyChanges [.fault] s (s.fatal e) := (fatal_raises s e).2.1

theorem setStack_frame (stk : Vector Word Config.stackDepth) (sp : Fin (Config.stackDepth + 1)) :
    OnlyChanges [.stack] s { s with stk := stk, sp := sp } :=
  onlyChanges_of_eq fun p hp => by cases p <;> simp_all

theorem push_frame {t : State} {v : Word} (h : s.push v = some t) : OnlyChanges [.stack] s t := by
  obtain ⟨-, -, -, -, ht⟩ := push_eq_some h
  rw [ht]
  exact setStack_frame s _ _

theorem pop_frame {t : State} {v : Word} (h : s.pop = some (v, t)) : OnlyChanges [.stack] s t := by
  obtain ⟨-, -, ht⟩ := pop_eq_some h
  rw [ht]
  exact setStack_frame s s.stk _

/-- A checked data access changes what it changes in memory's bounds, or the fault latch (R241). -/
theorem ifInMemory_frame {ps : List Part} {t : State} (len : Nat) (h : OnlyChanges ps s t) :
    OnlyChanges (.fault :: ps) s (s.ifInMemory len t) := by
  rcases ifInMemory_cases s len t with ⟨-, heq⟩ | ⟨a, -, heq⟩ <;> rw [heq]
  · exact h.mono (by simp)
  · exact (fatal_frame s _).mono (by simp)

/-- `Cxkk` writes its register, moves on and counts a drawn byte (R212). -/
theorem rndWith_frame (rand : Byte) (x : RegIx) (kk : Byte) :
    OnlyChanges [.regs, .pc, .draws] s (rndWith rand x kk s) :=
  onlyChanges_of_eq fun p hp => by cases p <;> simp_all [rndWith]

/-- `Dxyn` inside memory writes the pixels and the flag, and moves on (R272). -/
theorem drawn_frame (x y : RegIx) (n : Nat) : OnlyChanges [.fb, .regs, .pc] s (drawn x y n s) :=
  (((setFB_frame s _).trans (setV_frame _ _ _)).trans (advance_frame _)).trans (signalRedraw_frame _)

theorem startWait_frame (x : RegIx) :
    OnlyChanges [.wait] s { s with wait := .waiting x none }.reportWaiting :=
  onlyChanges_of_eq fun p hp => by cases p <;> simp_all

end frames

/-! ### Which parts an instruction can write -/

end Sys2Proof.Machine

namespace Sys2Proof

/-- The parts of the state that the instruction can change. -/
def Instr.writes : Instr → List Machine.Part
  | .cls => [.fb, .pc]
  | .drw _ _ _ => [.fault, .fb, .regs, .pc]
  | .jp _ | .jpV0 _ | .seImm _ _ | .sneImm _ _ | .seReg _ _ | .sneReg _ _ => [.pc]
  | .skp _ | .sknp _ => [.pc, .fault]
  | .ret | .call _ => [.stack, .pc, .fault]
  | .ldImm _ _ | .addImm _ _ | .ldReg _ _ | .orReg _ _ | .andReg _ _ | .xorReg _ _ | .addReg _ _ | .subReg _ _
  | .shr _ _ | .subnReg _ _ | .shl _ _ | .ldVxDT _ => [.regs, .pc]
  | .rnd _ _ => [.regs, .pc, .draws]
  | .ldI _ | .addIVx _ | .ldFVx _ => [.index, .pc]
  | .ldVxK _ => [.wait]
  | .ldDTVx _ => [.dt, .pc]
  | .ldSTVx _ => [.st, .pc]
  | .ldBVx _ | .storeRegs _ => [.fault, .mem, .pc]
  | .loadRegs _ => [.fault, .regs, .pc]

end Sys2Proof

namespace Sys2Proof.Machine

theorem execRet_frame (s : State) : ∃ t, execRet s = .next t ∧ OnlyChanges [.stack, .pc, .fault] s t := by
  rcases execRet_cases s with ⟨v, t, hpop, h⟩ | ⟨-, h⟩
  · exact ⟨_, h, ((pop_frame s hpop).trans (goto_frame t v)).mono (by simp)⟩
  · exact ⟨_, h, (fatal_frame s _).mono (by simp)⟩

theorem execCall_frame (nnn : Word) (s : State) :
    ∃ t, execCall nnn s = .next t ∧ OnlyChanges [.stack, .pc, .fault] s t := by
  rcases execCall_cases nnn s with ⟨t, hpush, h⟩ | ⟨-, h⟩
  · exact ⟨_, h, ((push_frame s hpush).trans (goto_frame t nnn)).mono (by simp)⟩
  · exact ⟨_, h, (fatal_frame s _).mono (by simp)⟩

theorem KeyTestEnds.frame {wanted : Bool → Bool} {x : RegIx} {s : State} {r : Result} (h : KeyTestEnds wanted x s r) :
    ∃ t, r = .next t ∧ OnlyChanges [.pc, .fault] s t := by
  rcases h with ⟨k, -, h⟩ | ⟨-, h⟩
  · exact ⟨_, h, (skipIf_frame s _).mono (by simp)⟩
  · exact ⟨_, h, (fatal_frame s _).mono (by simp)⟩

/-- Every instruction answers a next state, and changes only the parts it can write. -/
theorem exec_writes (i : Instr) (s : State) : ∃ t, exec i s = .next t ∧ OnlyChanges i.writes s t := by
  cases i with
  | cls => exact ⟨_, rfl, ((setFB_frame s _).trans (advance_frame _)).trans (signalRedraw_frame _)⟩
  | ret => exact execRet_frame s
  | jp nnn => exact ⟨_, rfl, goto_frame s nnn⟩
  | call nnn => exact execCall_frame nnn s
  | seImm x kk => exact ⟨_, rfl, skipIf_frame s _⟩
  | sneImm x kk => exact ⟨_, rfl, skipIf_frame s _⟩
  | seReg x y => exact ⟨_, rfl, skipIf_frame s _⟩
  | sneReg x y => exact ⟨_, rfl, skipIf_frame s _⟩
  | ldImm x kk => exact ⟨_, rfl, (setV_frame s _ _).trans (advance_frame _)⟩
  | addImm x kk => exact ⟨_, rfl, (setV_frame s _ _).trans (advance_frame _)⟩
  | ldReg x y => exact ⟨_, rfl, (setV_frame s _ _).trans (advance_frame _)⟩
  | orReg x y => exact ⟨_, rfl, (setV_frame s _ _).trans (advance_frame _)⟩
  | andReg x y => exact ⟨_, rfl, (setV_frame s _ _).trans (advance_frame _)⟩
  | xorReg x y => exact ⟨_, rfl, (setV_frame s _ _).trans (advance_frame _)⟩
  | addReg x y => exact ⟨_, rfl, (setResultFlag_frame s _ _).trans (advance_frame _)⟩
  | subReg x y => exact ⟨_, rfl, (setResultFlag_frame s _ _).trans (advance_frame _)⟩
  | shr x y => exact ⟨_, rfl, (setResultFlag_frame s _ _).trans (advance_frame _)⟩
  | subnReg x y => exact ⟨_, rfl, (setResultFlag_frame s _ _).trans (advance_frame _)⟩
  | shl x y => exact ⟨_, rfl, (setResultFlag_frame s _ _).trans (advance_frame _)⟩
  | ldI nnn => exact ⟨_, rfl, (setI_frame s _).trans (advance_frame _)⟩
  | jpV0 nnn => exact ⟨_, rfl, goto_frame s _⟩
  | rnd x kk => exact ⟨_, rfl, rndWith_frame s _ x kk⟩
  | drw x y n => exact ⟨_, rfl, ifInMemory_frame s n (drawn_frame s x y n)⟩
  | skp x => exact (execSkp_ends x s).frame
  | sknp x => exact (execSknp_ends x s).frame
  | ldVxDT x => exact ⟨_, rfl, (setV_frame s _ _).trans (advance_frame _)⟩
  | ldVxK x => exact ⟨_, rfl, startWait_frame s x⟩
  | ldDTVx x => exact ⟨_, rfl, (setDT_frame s _).trans (advance_frame _)⟩
  | ldSTVx x => exact ⟨_, rfl, (setST_frame s _).trans (advance_frame _)⟩
  | addIVx x => exact ⟨_, rfl, (setI_frame s _).trans (advance_frame _)⟩
  | ldFVx x => exact ⟨_, rfl, (setI_frame s _).trans (advance_frame _)⟩
  | ldBVx x => exact ⟨_, rfl, ifInMemory_frame s 3 ((setMem_frame s _).trans (advance_frame _))⟩
  | storeRegs x => exact ⟨_, rfl, ifInMemory_frame s _ ((setMem_frame s _).trans (advance_frame _))⟩
  | loadRegs x => exact ⟨_, rfl, ifInMemory_frame s _ ((setRegsUpTo_frame s x _).trans (advance_frame _))⟩

/-- A part that an instruction changes is one that it can write. -/
theorem mem_writes_of_changed {i : Instr} {s t : State} {p : Part} (h : exec i s = .next t) (hne : ¬ p.Same s t) :
    p ∈ i.writes := by
  by_contra hp
  exact hne (of_exists_next (exec_writes i s) h p hp)

theorem index_mem_writes {i : Instr} (h : .index ∈ i.writes) :
    (∃ nnn, i = .ldI nnn) ∨ ∃ x, i = .addIVx x ∨ i = .ldFVx x := by
  cases i <;> simp [Instr.writes] at h ⊢

theorem dt_mem_writes {i : Instr} (h : .dt ∈ i.writes) : ∃ x, i = .ldDTVx x := by
  cases i <;> simp [Instr.writes] at h ⊢

theorem st_mem_writes {i : Instr} (h : .st ∈ i.writes) : ∃ x, i = .ldSTVx x := by
  cases i <;> simp [Instr.writes] at h ⊢

theorem keys_not_mem_writes (i : Instr) : .keys ∉ i.writes := by
  cases i <;> simp [Instr.writes]

/-- Settles O43: every other instruction's frame contains `I`. -/
theorem indexRegisterHasThreeWriters : Obligations.IndexRegisterHasThreeWriters := by
  unfold Obligations.IndexRegisterHasThreeWriters
  intro i s t h hne
  exact index_mem_writes (mem_writes_of_changed (p := .index) h hne)

/-- Settles O53: a step that runs no instruction touches no key and no timer, and one that does changes only what the
instruction can write. -/
theorem stepsLeaveKeysAndTimersAlone : Obligations.StepsLeaveKeysAndTimersAlone := by
  unfold Obligations.StepsLeaveKeysAndTimersAlone
  intro s t h
  cases step_cases h with
  | latched | pending | completed | fetchBeyond | unknown =>
    exact ⟨rfl, fun hne => absurd rfl hne, fun hne => absurd rfl hne⟩
  | ran i _ hruns hexec =>
    refine ⟨of_exists_next (exec_writes i s) hexec .keys (keys_not_mem_writes i), fun hne => ?_, fun hne => ?_⟩
    · obtain ⟨x, rfl⟩ := dt_mem_writes (mem_writes_of_changed (p := .dt) hexec hne)
      exact ⟨x, hruns⟩
    · obtain ⟨x, rfl⟩ := st_mem_writes (mem_writes_of_changed (p := .st) hexec hne)
      exact ⟨x, hruns⟩

/-! ### Decoded operands fit their fields (R103) -/

theorem addressFits_fieldNNN (w : Word) : addressFits (fieldNNN w) = true := by
  have := fieldNNN_toNat w
  simp only [addressFits, decide_eq_true_eq]
  omega

theorem countFits_fieldN (w : Word) : countFits (fieldN w) = true := by
  have := fieldN_eq w
  simp only [countFits, decide_eq_true_eq]
  omega

theorem decode0_wf {w : Word} {i : Instr} (h : decode0 w = .instr i) : i.wf = true := by
  unfold decode0 at h
  split_ifs at h <;> cases h <;> rfl

theorem decode8_wf {w : Word} {i : Instr} (h : decode8 w = .instr i) : i.wf = true := by
  unfold decode8 at h
  split at h <;> cases h <;> rfl

theorem decodeE_wf {w : Word} {i : Instr} (h : decodeE w = .instr i) : i.wf = true := by
  unfold decodeE at h
  split at h <;> cases h <;> rfl

theorem decodeF_wf {w : Word} {i : Instr} (h : decodeF w = .instr i) : i.wf = true := by
  unfold decodeF at h
  split at h <;> cases h <;> rfl

/-- The instruction a word decodes to is well-formed. -/
theorem decode_wf {w : Word} {i : Instr} (h : decode w = .instr i) : i.wf = true := by
  unfold decode at h
  split at h
  case h_1 => exact decode0_wf h
  case h_9 => exact decode8_wf h
  case h_15 => exact decodeE_wf h
  case h_16 => exact decodeF_wf h
  case h_6 | h_10 =>
    split_ifs at h
    cases h
    rfl
  case h_2 | h_3 | h_11 | h_12 =>
    cases h
    exact addressFits_fieldNNN w
  case h_14 =>
    cases h
    exact countFits_fieldN w
  case h_4 | h_5 | h_7 | h_8 | h_13 =>
    cases h
    rfl

/-! ### The operations under which the invariant is kept -/

/-- The state of a machine that is about to run an instruction: the invariant holds, and a word can be fetched. -/
structure State.Ready (s : State) : Prop where
  inv : s.Inv
  fetches : s.Fetches

/-- With no fault latched there is nothing to record. -/
theorem records_of_no_fault {s : State} (h : s.fault = none) : ∀ e, s.fault = some e → s.Records e := by
  simp [h]

/-- While a word can be fetched, the invariant says nothing of faults and waits. -/
theorem ready_of {s : State} (memory : s.mem.wf) (index : s.i.toNat ≤ 0xFFF)
    (returns : ∀ k, k < s.sp.val → (s.entry k).toNat ≤ 0x1000) (fetches : s.Fetches) : s.Ready := by
  obtain ⟨⟨hfault, hwait⟩, hpc⟩ := fetches
  exact
    { inv :=
        { memory, index, returns
          pc := by omega
          waitAddress := fun _ => hpc
          waitExcludesFault := .inl hwait
          records := records_of_no_fault hfault }
      fetches := ⟨⟨hfault, hwait⟩, hpc⟩ }

/-- The invariant does not speak of the recorded outcome. -/
theorem State.Inv.withOut {s : State} (h : s.Inv) (o : StepOutcome) : ({ s with out := o } : State).Inv where
  memory := h.memory
  index := h.index
  pc := h.pc
  returns := h.returns
  waitAddress := h.waitAddress
  waitExcludesFault := h.waitExcludesFault
  records := h.records

theorem State.Inv.signalRedraw {s : State} (h : s.Inv) : s.signalRedraw.Inv := h.withOut _

/-- A fatal error keeps the invariant when it records what R361 says of the state it is raised in. -/
theorem State.Inv.fatal {s : State} {e : FatalError} (h : s.Inv) (hwait : s.wait = .idle) (hrec : s.Records e) :
    (s.fatal e).Inv where
  memory := h.memory
  index := h.index
  pc := h.pc
  returns := h.returns
  waitAddress := h.waitAddress
  waitExcludesFault := .inl hwait
  records := fun e' he => by
    cases he
    exact hrec

/-- The first address that a data access from `I ≤ 0xFFF` finds outside memory is 0x1000 (R241). -/
theorem firstOutside_eq_memSize {base len a : Nat} (hbase : base ≤ 0xFFF) (h : firstOutside base len = some a) :
    a = 0x1000 := by
  obtain ⟨⟨-, ha, hge⟩, hleast⟩ := firstOutside_eq_some.mp h
  have := hleast 0x1000 (by omega) (by omega) (by omega)
  omega

namespace State.Ready
variable {s : State}

theorem setRegs (h : s.Ready) (v : Vector Byte 16) : ({ s with v := v } : State).Ready :=
  ready_of h.inv.memory h.inv.index h.inv.returns h.fetches

theorem setV (h : s.Ready) (x : RegIx) (b : Byte) : (s.setV x b).Ready := h.setRegs _

theorem setResultFlag (h : s.Ready) (x : RegIx) (p : Byte × Bool) : (s.setResultFlag x p).Ready :=
  (h.setV x p.1).setV VF (flagByte p.2)

theorem setRegsUpTo (h : s.Ready) (x : RegIx) (f : Nat → Byte) : (s.setRegsUpTo x f).Ready := h.setRegs _

theorem setI (h : s.Ready) {w : Word} (hw : w.toNat ≤ 0xFFF) : (s.setI w).Ready :=
  ready_of h.inv.memory hw h.inv.returns h.fetches

theorem setDT (h : s.Ready) (b : Byte) : (s.setDT b).Ready :=
  ready_of h.inv.memory h.inv.index h.inv.returns h.fetches

theorem setST (h : s.Ready) (b : Byte) : (s.setST b).Ready :=
  ready_of h.inv.memory h.inv.index h.inv.returns h.fetches

theorem setFB (h : s.Ready) (f : Framebuffer) : (s.setFB f).Ready :=
  ready_of h.inv.memory h.inv.index h.inv.returns h.fetches

theorem writeBytes (h : s.Ready) (a : Nat) (bytes : List Byte) :
    (s.setMem (Machine.writeBytes s.mem a bytes)).Ready :=
  ready_of (writeBytes_wf bytes a h.inv.memory) h.inv.index h.inv.returns h.fetches

theorem countDraw (h : s.Ready) : ({ s with draws := s.draws + 1 } : State).Ready :=
  ready_of h.inv.memory h.inv.index h.inv.returns h.fetches

theorem push (h : s.Ready) {t : State} {v : Word} (hv : v.toNat ≤ 0x1000) (hpush : s.push v = some t) : t.Ready := by
  obtain ⟨-, hsp, hnew, hold, ht⟩ := push_eq_some hpush
  refine ready_of (by rw [ht]; exact h.inv.memory) (by rw [ht]; exact h.inv.index) (fun k hk => ?_)
    (by rw [ht]; exact h.fetches)
  by_cases hk' : k = s.sp.val
  · rw [hk', hnew]
    exact hv
  · rw [hold k hk']
    exact h.inv.returns k (by omega)

/-- A pop leaves a state ready, and gives a held return address. -/
theorem pop (h : s.Ready) {t : State} {v : Word} (hpop : s.pop = some (v, t)) : t.Ready ∧ v.toNat ≤ 0x1000 := by
  obtain ⟨hsp, hv, ht⟩ := pop_eq_some hpop
  have hreturns : ∀ k, k ≤ t.sp.val → (s.entry k).toNat ≤ 0x1000 := fun k hk => h.inv.returns k (by omega)
  refine ⟨?_, hv ▸ hreturns t.sp.val le_rfl⟩
  rw [ht]
  exact ready_of h.inv.memory h.inv.index (fun k hk => hreturns k (Nat.le_of_lt hk)) h.fetches

theorem goto (h : s.Ready) {target : Word} (ht : target.toNat ≤ 0x10FE) : (s.goto target).Inv where
  memory := h.inv.memory
  index := h.inv.index
  pc := ht
  returns := h.inv.returns
  waitAddress := fun hwait => absurd h.fetches.1.2 hwait
  waitExcludesFault := h.inv.waitExcludesFault
  records := records_of_no_fault h.fetches.1.1

/-- The address after an instruction is at most 0x1000. -/
theorem npc_le (h : s.Ready) : s.npc.toNat ≤ 0x1000 := by
  have hpc : s.pc.toNat < 0xFFF := h.fetches.2
  rw [State.npc]
  bv_omega

theorem advance (h : s.Ready) : s.advance.Inv := h.goto (h.npc_le.trans (by decide))

theorem skipIf (h : s.Ready) (c : Bool) : (s.skipIf c).Inv := by
  refine h.goto ?_
  have hnpc := h.npc_le
  split
  · bv_omega
  · omega

theorem fatal (h : s.Ready) {e : FatalError} (hrec : s.Records e) : (s.fatal e).Inv :=
  h.inv.fatal h.fetches.1.2 hrec

theorem ifInMemory (h : s.Ready) {t : State} (len : Nat) (ht : t.Inv) : (s.ifInMemory len t).Inv := by
  rcases ifInMemory_cases s len t with ⟨-, heq⟩ | ⟨a, houtside, heq⟩ <;> rw [heq]
  · exact ht
  · exact h.fatal (firstOutside_eq_memSize h.inv.index houtside)

/-- A wait starts at the address its `Fx0A` was fetched from (R305). -/
theorem startWait (h : s.Ready) (x : RegIx) : ({ s with wait := .waiting x none } : State).Inv where
  memory := h.inv.memory
  index := h.inv.index
  pc := h.inv.pc
  returns := h.inv.returns
  waitAddress := fun _ => h.fetches.2
  waitExcludesFault := .inr h.fetches.1.1
  records := records_of_no_fault h.fetches.1.1

theorem drawn (h : s.Ready) (x y : RegIx) (n : Nat) : (Machine.drawn x y n s).Inv :=
  ((h.setFB _).setV VF _).advance.signalRedraw

/-! ### The instructions, from a ready state -/

theorem execRet (h : s.Ready) : ∃ t, Machine.execRet s = .next t ∧ t.Inv := by
  rcases execRet_cases s with ⟨v, t, hpop, heq⟩ | ⟨hempty, heq⟩
  · obtain ⟨ht, hv⟩ := h.pop hpop
    exact ⟨_, heq, ht.goto (hv.trans (by decide))⟩
  · exact ⟨_, heq, h.fatal ⟨rfl, hempty⟩⟩

theorem execCall (h : s.Ready) {nnn : Word} (hnnn : nnn.toNat ≤ 0xFFF) :
    ∃ t, Machine.execCall nnn s = .next t ∧ t.Inv := by
  rcases execCall_cases nnn s with ⟨t, hpush, heq⟩ | ⟨hfull, heq⟩
  · exact ⟨_, heq, (h.push h.npc_le hpush).goto (hnnn.trans (by decide))⟩
  · exact ⟨_, heq, h.fatal ⟨rfl, hfull⟩⟩

theorem keyTest (h : s.Ready) {wanted : Bool → Bool} {x : RegIx} {r : Result} (hr : KeyTestEnds wanted x s r) :
    ∃ t, r = .next t ∧ t.Inv := by
  rcases hr with ⟨k, -, heq⟩ | ⟨hbad, heq⟩
  · exact ⟨_, heq, h.skipIf _⟩
  · exact ⟨_, heq, h.fatal ⟨hbad, x, rfl⟩⟩

end State.Ready

/-- An address operand that fits its field is at most 0xFFF (R103). -/
theorem le_of_addressFits {nnn : Word} (h : addressFits nnn = true) : nnn.toNat ≤ 0xFFF := by
  simp only [addressFits, decide_eq_true_eq] at h
  omega

/-- `Bnnn` reaches at most 0xFFF + 0xFF (R178). -/
theorem offset_target_le {nnn : Word} (b : Byte) (h : nnn.toNat ≤ 0xFFF) :
    (nnn + b.setWidth 16).toNat ≤ 0x10FE := by
  have hb := b.isLt
  simp only [BitVec.toNat_add, BitVec.toNat_setWidth]
  omega

theorem indexPlus_le (i : Word) (b : Byte) : (indexPlus i b).toNat ≤ 0xFFF := by
  simp only [indexPlus, BitVec.toNat_ofNat]
  omega

theorem glyphAddress_le (b : Byte) : (glyphAddress b).toNat ≤ 0xFFF := by
  have hb := b.isLt
  rw [glyphAddress, BitVec.toNat_ofNat]
  exact (Nat.mod_le _ _).trans (by omega)

/-- A well-formed instruction takes a ready state to one that meets the invariant. -/
theorem exec_keeps_inv {i : Instr} {s : State} (h : s.Ready) (hwf : i.wf = true) :
    ∃ t, exec i s = .next t ∧ t.Inv := by
  cases i with
  | cls => exact ⟨_, rfl, (h.setFB _).advance.signalRedraw⟩
  | ret => exact h.execRet
  | jp nnn => exact ⟨_, rfl, h.goto ((le_of_addressFits hwf).trans (by decide))⟩
  | call nnn => exact h.execCall (le_of_addressFits hwf)
  | seImm x kk => exact ⟨_, rfl, h.skipIf _⟩
  | sneImm x kk => exact ⟨_, rfl, h.skipIf _⟩
  | seReg x y => exact ⟨_, rfl, h.skipIf _⟩
  | sneReg x y => exact ⟨_, rfl, h.skipIf _⟩
  | ldImm x kk => exact ⟨_, rfl, (h.setV _ _).advance⟩
  | addImm x kk => exact ⟨_, rfl, (h.setV _ _).advance⟩
  | ldReg x y => exact ⟨_, rfl, (h.setV _ _).advance⟩
  | orReg x y => exact ⟨_, rfl, (h.setV _ _).advance⟩
  | andReg x y => exact ⟨_, rfl, (h.setV _ _).advance⟩
  | xorReg x y => exact ⟨_, rfl, (h.setV _ _).advance⟩
  | addReg x y => exact ⟨_, rfl, (h.setResultFlag _ _).advance⟩
  | subReg x y => exact ⟨_, rfl, (h.setResultFlag _ _).advance⟩
  | shr x y => exact ⟨_, rfl, (h.setResultFlag _ _).advance⟩
  | subnReg x y => exact ⟨_, rfl, (h.setResultFlag _ _).advance⟩
  | shl x y => exact ⟨_, rfl, (h.setResultFlag _ _).advance⟩
  | ldI nnn => exact ⟨_, rfl, (h.setI (le_of_addressFits hwf)).advance⟩
  | jpV0 nnn => exact ⟨_, rfl, h.goto (offset_target_le _ (le_of_addressFits hwf))⟩
  | rnd x kk => exact ⟨_, rfl, (h.countDraw.setV _ _).advance⟩
  | drw x y n => exact ⟨_, rfl, h.ifInMemory n (h.drawn x y n)⟩
  | skp x => exact h.keyTest (execSkp_ends x s)
  | sknp x => exact h.keyTest (execSknp_ends x s)
  | ldVxDT x => exact ⟨_, rfl, (h.setV _ _).advance⟩
  | ldVxK x => exact ⟨_, rfl, (h.startWait x).withOut _⟩
  | ldDTVx x => exact ⟨_, rfl, (h.setDT _).advance⟩
  | ldSTVx x => exact ⟨_, rfl, (h.setST _).advance⟩
  | addIVx x => exact ⟨_, rfl, (h.setI (indexPlus_le _ _)).advance⟩
  | ldFVx x => exact ⟨_, rfl, (h.setI (glyphAddress_le _)).advance⟩
  | ldBVx x => exact ⟨_, rfl, h.ifInMemory 3 (h.writeBytes _ _).advance⟩
  | storeRegs x => exact ⟨_, rfl, h.ifInMemory _ (h.writeBytes _ _).advance⟩
  | loadRegs x => exact ⟨_, rfl, h.ifInMemory _ (h.setRegsUpTo x _).advance⟩

/-- A pending wait ends at an instruction that can be fetched again, and so in a state that meets the invariant. -/
theorem State.Inv.completeWait {s : State} (h : s.Inv) {x : RegIx} {o : Option KeyIx} (hfault : s.fault = none)
    (hwait : s.wait = .waiting x o) (k : KeyIx) : (s.completeWait x k).Inv := by
  have hpc : s.pc.toNat < 0xFFF := h.waitAddress (by simp [hwait])
  have hready : ({ s with wait := .idle } : State).Ready :=
    ready_of h.memory h.index h.returns ⟨⟨hfault, rfl⟩, hpc⟩
  exact (hready.setV x _).advance

/-- Settles O4, by the ways a step can go; an instruction is well-formed because it was decoded. -/
theorem stepKeepsTheInvariant : Obligations.StepKeepsTheInvariant := by
  unfold Obligations.StepKeepsTheInvariant
  intro s t h hstep
  cases step_cases hstep with
  | latched e => exact h.withOut _
  | pending => exact h.withOut _
  | completed x k hfault hwait => exact h.completeWait hfault hwait k
  | fetchBeyond hrun hpc => exact h.fatal hrun.2 ⟨rfl, hpc⟩
  | unknown r hfetch => exact (State.Ready.mk h hfetch).advance.withOut _
  | ran i _ hruns hexec =>
    obtain ⟨hfetch, hdecode⟩ := hruns
    exact of_exists_next (exec_keeps_inv ⟨h, hfetch⟩ (decode_wf hdecode)) hexec

/-! ### Reset -/

/-- Settles O3: the reset state is about to fetch at 0x200. -/
theorem resetMeetsTheInvariant : Obligations.ResetMeetsTheInvariant :=
  (ready_of reset_mem_wf (by decide) (by decide) ⟨⟨rfl, rfl⟩, by decide⟩).inv

/-- The reset contents are the font's 80 bytes and 0 after them (R31, R50). -/
theorem unlisted_eq (a : Nat) : unlisted a = if a < 80 then Config.font.getD a 0 else 0 := by
  have hlength : Config.font.length = 80 := rfl
  split
  next => rfl
  next ha => exact List.getD_eq_default _ _ (by omega)

/-- A framebuffer just cleared has every pixel off. -/
theorem getPixel_clearFB (idx : Nat) : getPixel clearFB idx = false := by
  unfold getPixel clearFB
  split <;> simp

/-- The host's reset call gives the state table, whatever the state before (R50). -/
theorem isResetState_reinit (s : State) : IsResetState s.reinit := by
  refine ⟨fun a _ => unlisted_eq a, fun r => ?_, rfl, rfl, fun k hk => ?_, rfl, rfl, rfl, fun px py _ _ => ?_,
    fun k => ?_, rfl, rfl⟩
  · simp [State.getV, State.reinit, State.reset]
  · rw [entry_eq _ _ hk]
    simp [State.reinit, State.reset]
  · exact getPixel_clearFB _
  · simp [State.reinit, State.reset]

/-- Settles O1: the reset state is one that the host's reset call leaves. -/
theorem resetMatchesTheStateTable : Obligations.ResetMatchesTheStateTable :=
  ⟨isResetState_reinit State.reset, fun s => ⟨rfl, isResetState_reinit s⟩⟩

end Sys2Proof.Machine
end

section
/-! PROOFS. The word that two bytes make, as a number (R72). -/

namespace Sys2Proof

/-- The shift and the disjunction put the high byte in front of the low one. -/
theorem wordOfBytes_eq_append (hi lo : Byte) : wordOfBytes hi lo = hi ++ lo := by
  rw [wordOfBytes, ← BitVec.setWidth_append_eq_shiftLeft_setWidth_or, BitVec.setWidth_eq]

/-- The low byte fits the eight bits that the high one leaves free, so that the disjunction is a sum. -/
theorem wordOfBytes_toNat (hi lo : Byte) : (wordOfBytes hi lo).toNat = hi.toNat * 256 + lo.toNat := by
  rw [wordOfBytes_eq_append, BitVec.toNat_append, ← Nat.shiftLeft_add_eq_or_of_lt lo.isLt, Nat.shiftLeft_eq]

end Sys2Proof

namespace Sys2Proof.Machine

/-- Settles O14: the fetched word is the one its two bytes make, the byte at `pc` the high one. -/
theorem fetchedWordIsBigEndian : Obligations.FetchedWordIsBigEndian :=
  fun s => wordOfBytes_toNat (s.byteAt s.pc.toNat) (s.byteAt (s.pc.toNat + 1))

end Sys2Proof.Machine
end

section
/-! PROOFS. The encoder's words as numbers, and from them both halves of the round trip of decoder and encoder: the
fields of an encoded word are the instruction's operands, and a word is put together again from its fields (R101, R102,
R110). -/

namespace Sys2Proof.Machine

/-! ### The words of the formats as numbers (R102) -/

theorem nibbleAt_toNat {k : Nat} (v : BitVec 4) (hk : k ≤ 12) : (nibbleAt k v).toNat = v.toNat * 2 ^ k := by
  have hfits : v.toNat * 2 ^ k < 2 ^ 16 :=
    calc v.toNat * 2 ^ k < 2 ^ 4 * 2 ^ k := Nat.mul_lt_mul_of_pos_right v.isLt (Nat.two_pow_pos k)
      _ ≤ 2 ^ 4 * 2 ^ 12 := Nat.mul_le_mul_left _ (Nat.pow_le_pow_right (by decide) hk)
  rw [nibbleAt, BitVec.toNat_shiftLeft, BitVec.toNat_setWidth_of_le (by decide), Nat.shiftLeft_eq,
    Nat.mod_eq_of_lt hfits]

/-- A field placed above bits that fit below it: the disjunction is a sum. -/
theorem nibbleAt_or_toNat {k : Nat} (v : BitVec 4) {low : Word} (hk : k ≤ 12) (hlow : low.toNat < 2 ^ k) :
    (nibbleAt k v ||| low).toNat = v.toNat * 2 ^ k + low.toNat := by
  rw [BitVec.toNat_or, nibbleAt_toNat v hk, ← Nat.shiftLeft_eq, Nat.shiftLeft_add_eq_or_of_lt hlow]

theorem regAt_or_toNat {k : Nat} (x : RegIx) {low : Word} (hk : k ≤ 12) (hlow : low.toNat < 2 ^ k) :
    (regAt k x ||| low).toNat = x.val * 2 ^ k + low.toNat :=
  nibbleAt_or_toNat (BitVec.ofFin x) hk hlow

theorem encodeNNN_toNat (op : BitVec 4) (nnn : Word) :
    (encodeNNN op nnn).toNat = op.toNat * 4096 + nnn.toNat % 4096 := by
  have hlow : (nnn &&& 0x0FFF).toNat = nnn.toNat % 4096 := Nat.and_two_pow_sub_one_eq_mod nnn.toNat 12
  rw [encodeNNN, nibbleAt_or_toNat op le_rfl (by omega), hlow]
  rfl

theorem encodeXKK_toNat (op : BitVec 4) (x : RegIx) (kk : Byte) :
    (encodeXKK op x kk).toNat = op.toNat * 4096 + x.val * 256 + kk.toNat := by
  have hkk : (kk.setWidth 16).toNat = kk.toNat := BitVec.toNat_setWidth_of_le (by decide)
  have hx : (regAt 8 x ||| kk.setWidth 16).toNat = x.val * 2 ^ 8 + kk.toNat := by
    rw [regAt_or_toNat x (by decide) (by omega), hkk]
  rw [encodeXKK, BitVec.or_assoc, nibbleAt_or_toNat op le_rfl (by omega), hx]
  omega

theorem encodeXYN_toNat (op : BitVec 4) (x y : RegIx) (n : BitVec 4) :
    (encodeXYN op x y n).toNat = op.toNat * 4096 + x.val * 256 + y.val * 16 + n.toNat := by
  have hn : (nibbleAt 0 n).toNat = n.toNat := (nibbleAt_toNat n (by decide)).trans (Nat.mul_one _)
  have hy : (regAt 4 y ||| nibbleAt 0 n).toNat = y.val * 2 ^ 4 + n.toNat := by
    rw [regAt_or_toNat y (by decide) (by omega), hn]
  have hx : (regAt 8 x ||| (regAt 4 y ||| nibbleAt 0 n)).toNat = x.val * 2 ^ 8 + (y.val * 2 ^ 4 + n.toNat) := by
    rw [regAt_or_toNat x (by decide) (by omega), hy]
  rw [encodeXYN, BitVec.or_assoc, BitVec.or_assoc, nibbleAt_or_toNat op le_rfl (by omega), hx]
  omega

/-! ### The fields of an encoded word are the operands (R101) -/

section fields
variable (op : BitVec 4) (x y : RegIx) (kk : Byte) (n : BitVec 4)

@[simp] theorem fieldOp_encodeNNN (nnn : Word) : fieldOp (encodeNNN op nnn) = op.toNat := by
  rw [fieldOp_eq, encodeNNN_toNat]
  omega

theorem fieldNNN_encodeNNN {nnn : Word} (h : addressFits nnn = true) : fieldNNN (encodeNNN op nnn) = nnn := by
  have hnnn := le_of_addressFits h
  apply BitVec.eq_of_toNat_eq
  rw [fieldNNN_toNat, encodeNNN_toNat]
  omega

@[simp] theorem fieldOp_encodeXKK : fieldOp (encodeXKK op x kk) = op.toNat := by
  rw [fieldOp_eq, encodeXKK_toNat]
  omega

@[simp] theorem fieldX_encodeXKK : fieldX (encodeXKK op x kk) = x := by
  apply Fin.ext
  rw [fieldX_val, encodeXKK_toNat]
  omega

@[simp] theorem fieldKK_encodeXKK : fieldKK (encodeXKK op x kk) = kk := by
  apply BitVec.eq_of_toNat_eq
  rw [fieldKK_toNat, encodeXKK_toNat]
  omega

@[simp] theorem fieldOp_encodeXYN : fieldOp (encodeXYN op x y n) = op.toNat := by
  rw [fieldOp_eq, encodeXYN_toNat]
  omega

@[simp] theorem fieldX_encodeXYN : fieldX (encodeXYN op x y n) = x := by
  apply Fin.ext
  rw [fieldX_val, encodeXYN_toNat]
  omega

@[simp] theorem fieldY_encodeXYN : fieldY (encodeXYN op x y n) = y := by
  apply Fin.ext
  rw [fieldY_val, encodeXYN_toNat]
  omega

@[simp] theorem fieldN_encodeXYN : fieldN (encodeXYN op x y n) = n.toNat := by
  rw [fieldN_eq, encodeXYN_toNat]
  omega

end fields

/-! ### A word is put together from its fields (R101) -/

section words
variable {op : BitVec 4} {w : Word}

theorem encodeNNN_of_fields (hop : fieldOp w = op.toNat) : encodeNNN op (fieldNNN w) = w := by
  rw [fieldOp_eq] at hop
  apply BitVec.eq_of_toNat_eq
  rw [encodeNNN_toNat, fieldNNN_toNat]
  omega

theorem encodeXKK_of_fields {kk : Byte} (hop : fieldOp w = op.toNat) (hkk : (fieldKK w).toNat = kk.toNat) :
    encodeXKK op (fieldX w) kk = w := by
  rw [fieldOp_eq] at hop
  rw [fieldKK_toNat] at hkk
  apply BitVec.eq_of_toNat_eq
  rw [encodeXKK_toNat, fieldX_val]
  omega

theorem encodeXYN_of_fields {n : BitVec 4} (hop : fieldOp w = op.toNat) (hn : fieldN w = n.toNat) :
    encodeXYN op (fieldX w) (fieldY w) n = w := by
  rw [fieldOp_eq] at hop
  rw [fieldN_eq] at hn
  apply BitVec.eq_of_toNat_eq
  rw [encodeXYN_toNat, fieldX_val, fieldY_val]
  omega

end words

/-! ### The round trip -/

/-- Settles O7, by the format of the instruction's word: the decoder finds the opcode nibble and, in the fixed field
where the format has one, the row; the other fields are the operands. -/
theorem decodeOfEncodeIsTheInstruction : Obligations.DecodeOfEncodeIsTheInstruction := by
  unfold Obligations.DecodeOfEncodeIsTheInstruction
  intro i hwf
  cases i
  case cls | ret => decide
  case jp nnn | call nnn | ldI nnn | jpV0 nnn =>
    simp [encode, decode, fieldNNN_encodeNNN _ hwf]
  case seImm x kk | sneImm x kk | ldImm x kk | addImm x kk | rnd x kk => simp [encode, decode]
  case seReg x y | sneReg x y => simp [encode, decode]
  case ldReg x y | orReg x y | andReg x y | xorReg x y | addReg x y | subReg x y | shr x y | subnReg x y | shl x y =>
    simp [encode, decode, decode8]
  case drw x y n =>
    have hn : n < 16 := by simpa [Instr.wf, countFits] using hwf
    simp [encode, decode, Nat.mod_eq_of_lt hn]
  case skp x | sknp x => simp [encode, decode, decodeE]
  case ldVxDT x | ldVxK x | ldDTVx x | ldSTVx x | addIVx x | ldFVx x | ldBVx x | storeRegs x | loadRegs x =>
    simp [encode, decode, decodeF]

section families
variable {w : Word} {i : Instr}

theorem encode_of_decode0 (h : decode0 w = .instr i) : encode i = w := by
  unfold decode0 at h
  split_ifs at h with hcls hret <;> cases h
  · exact hcls.symm
  · exact hret.symm

theorem encode_of_decode8 (hop : fieldOp w = 0x8) (h : decode8 w = .instr i) : encode i = w := by
  unfold decode8 at h
  split at h <;> cases h
  all_goals exact encodeXYN_of_fields hop ‹fieldN w = _›

theorem encode_of_decodeE (hop : fieldOp w = 0xE) (h : decodeE w = .instr i) : encode i = w := by
  unfold decodeE at h
  split at h <;> cases h
  all_goals exact encodeXKK_of_fields hop ‹(fieldKK w).toNat = _›

theorem encode_of_decodeF (hop : fieldOp w = 0xF) (h : decodeF w = .instr i) : encode i = w := by
  unfold decodeF at h
  split at h <;> cases h
  all_goals exact encodeXKK_of_fields hop ‹(fieldKK w).toNat = _›

theorem encode_of_decode (h : decode w = .instr i) : encode i = w := by
  unfold decode at h
  split at h
  case h_1 => exact encode_of_decode0 h
  case h_9 hop => exact encode_of_decode8 hop h
  case h_15 hop => exact encode_of_decodeE hop h
  case h_16 =>
    have hop : fieldOp w = 0xF := by
      have hlt : fieldOp w < 16 := (w.extractLsb' 12 4).isLt
      simp only [imp_false] at *
      omega
    exact encode_of_decodeF hop h
  case h_6 hop | h_10 hop =>
    split_ifs at h with hn
    cases h
    exact encodeXYN_of_fields hop hn
  case h_2 hop | h_3 hop | h_11 hop | h_12 hop =>
    cases h
    exact encodeNNN_of_fields hop
  case h_14 hop =>
    cases h
    exact encodeXYN_of_fields hop (by simp [fieldN])
  case h_4 hop | h_5 hop | h_7 hop | h_8 hop | h_13 hop =>
    cases h
    exact encodeXKK_of_fields hop rfl

end families

/-- Settles O8, by the decoder's families: each puts the word together again from the fields it reads. -/
theorem encodeOfDecodeIsTheWord : Obligations.EncodeOfDecodeIsTheWord :=
  fun _ _ h => ⟨encode_of_decode h, decode_wf h⟩

/-- Settles O10, by running the decoder on the eight words. -/
theorem writtenOutWordsDecode : Obligations.WrittenOutWordsDecode := by
  unfold Obligations.WrittenOutWordsDecode StandsFor
  decide

end Sys2Proof.Machine
end

section
/-! PROOFS. The step from its cases: each of the ways a step can go is the step, and every state has one of them (R140,
R150). From these the statements about the step cycle. -/

namespace Sys2Proof.Machine

/-! ### The converse of `step_cases` -/

/-- A step that fetches runs the fetched word (R143, R147). -/
theorem step_of_fetches {s : State} (h : s.Fetches) : step s = s.runWord s.fetchWord exec := by
  obtain ⟨⟨hfault, hwait⟩, hpc⟩ := h
  simp [step, hfault, hwait, State.fetchable, hpc]

theorem StepCase.step_eq {s t : State} (h : StepCase s t) : step s = .next t := by
  cases h with
  | latched e hfault => simp [step, hfault]
  | pending x hfault hwait => simp [step, hfault, hwait]
  | completed x k hfault hwait => simp [step, hfault, hwait]
  | fetchBeyond hrun hpc =>
    obtain ⟨hfault, hwait⟩ := hrun
    simp [step, hfault, hwait, State.fetchable, Nat.not_lt.mpr hpc]
  | unknown r hfetch hdecode => simp [step_of_fetches hfetch, State.runWord, hdecode]
  | ran i _ hruns hexec =>
    obtain ⟨hfetch, hdecode⟩ := hruns
    simp [step_of_fetches hfetch, State.runWord, hdecode, hexec]

/-- A fetched word is reported or run, and every instruction answers a next state. -/
theorem exists_stepCase_of_fetches {s : State} (hfetch : s.Fetches) : ∃ t, StepCase s t := by
  cases hdecode : decode s.fetchWord with
  | reject r => exact ⟨_, .unknown r hfetch hdecode⟩
  | instr i =>
    obtain ⟨t, hexec, -⟩ := exec_writes i s
    exact ⟨t, .ran i t ⟨hfetch, hdecode⟩ hexec⟩

/-- No state is outside the priority order of R364. -/
theorem exists_stepCase (s : State) : ∃ t, StepCase s t := by
  cases hfault : s.fault with
  | some e => exact ⟨_, .latched e hfault⟩
  | none =>
    cases hwait : s.wait with
    | waiting x key =>
      cases key with
      | none => exact ⟨_, .pending x hfault hwait⟩
      | some k => exact ⟨_, .completed x k hfault hwait⟩
    | idle =>
      obtain hpc | hpc := Nat.lt_or_ge s.pc.toNat 0xFFF
      · exact exists_stepCase_of_fetches ⟨⟨hfault, hwait⟩, hpc⟩
      · exact ⟨_, .fetchBeyond ⟨hfault, hwait⟩ hpc⟩

/-! ### The step cycle (R140 to R148) -/

theorem reportUnknown_frame (s : State) (w : Word) : OnlyChanges [.pc] s (s.reportUnknown w) :=
  onlyChanges_of_eq fun p hp => by cases p <;> simp_all

/-- Settles O12: the step is the report of the unknown word, whose frame is all but `pc`. -/
theorem unknownWordsAreReportedAndPassed : Obligations.UnknownWordsAreReportedAndPassed :=
  fun s r hfetch hdecode =>
    ⟨_, (StepCase.unknown r hfetch hdecode).step_eq, s.reportUnknown_pc _, reportUnknown_frame s _,
      s.reportUnknown_out _⟩

/-- Settles O6: every state has a case of the step, and each case is the step. -/
theorem stepAlwaysAnswersANextState : Obligations.StepAlwaysAnswersANextState :=
  fun s => (exists_stepCase s).imp fun _ h => h.step_eq

/-- Settles O17: the failing fetch is a case of the step, and raising its error is precise. -/
theorem fetchBeyondMemoryIsFatal : Obligations.FetchBeyondMemoryIsFatal :=
  fun s hrun hpc => ⟨_, (StepCase.fetchBeyond hrun hpc).step_eq, fatal_raises s _⟩

end Sys2Proof.Machine
end

section
/-! PROOFS. The jump and the skips on a comparison: the words they are written as, the state they go to, and the fetch
that fails where they leave memory (R143, R171, R173 to R177). -/

namespace Sys2Proof.Machine

/-! ### Which words stand for an instruction, and which for none (R110, R112) -/

/-- A word written out as a number stands for the instruction that the encoder gives it for. -/
theorem standsFor_of_encode {w : Nat} {i : Instr} (hwf : i.wf = true) (hw : (encode i).toNat = w) : StandsFor w i := by
  rw [StandsFor, ← hw, BitVec.ofNat_toNat, BitVec.setWidth_eq]
  exact decodeOfEncodeIsTheInstruction i hwf

/-- The rows `5xy0` and `9xy0` fix the low nibble (R112). -/
theorem decode_comparison_of_fieldN_ne_zero {w : Word} (hop : fieldOp w = 0x5 ∨ fieldOp w = 0x9) (hn : fieldN w ≠ 0) :
    decode w = .reject (.unknownOpcode w) := by
  rcases hop with hop | hop <;> simp [decode, hop, hn]

theorem standsForNone_of_comparison {w : Nat} (hop : w / 4096 = 0x5 ∨ w / 4096 = 0x9) (hn : w % 16 ≠ 0) :
    StandsForNone w := by
  have htoNat : (BitVec.ofNat 16 w).toNat = w := Nat.mod_eq_of_lt (by omega)
  apply decode_comparison_of_fieldN_ne_zero
  · rwa [fieldOp_eq, htoNat]
  · rwa [fieldN_eq, htoNat]

/-! ### A move of `pc` from a running state (R143, R173) -/

/-- A target at or beyond 0xFFF fails at the next fetch. -/
theorem fetchFails_goto {s : State} {target : Word} (hrun : s.Running) (htarget : 0xFFF ≤ target.toNat) :
    FetchFails (s.goto target) :=
  fetchBeyondMemoryIsFatal (s.goto target) hrun htarget

/-- An instruction that ends in the common skip rule has the shape of a skip. -/
theorem skipsWhen_of_skipIf {i : Instr} {s : State} {b : Bool} {c : Prop} (hexec : exec i s = .next (s.skipIf b))
    (hb : b = true ↔ c) : SkipsWhen i c s := by
  refine ⟨_, hexec, fun hc => ?_, fun hc => ?_, skipIf_frame s b, s.skipIf_out b, fetchFails_goto⟩
  · rw [s.skipIf_pc, if_pos (hb.mpr hc), State.npc, BitVec.add_assoc]
    rfl
  · rw [s.skipIf_pc, if_neg (mt hb.mp hc), State.npc]

/-- Settles O23: the operand fits the word's field, and the jump moves `pc` and does nothing else. -/
theorem jumpSetsThePc : Obligations.JumpSetsThePc := by
  unfold Obligations.JumpSetsThePc
  intro s nnn hnnn
  have htoNat : (BitVec.ofNat 16 nnn).toNat = nnn := Nat.mod_eq_of_lt (by omega)
  refine ⟨standsFor_of_encode ?_ ?_, _, rfl, htoNat, goto_frame s _, s.goto_out _, fun hrun hlast => ?_⟩
  · simpa [Instr.wf, addressFits, htoNat] using hnnn
  · rw [encode, encodeNNN_toNat, htoNat]
    bv_omega
  · exact fetchFails_goto hrun (by omega)

/-- Settles O28: each comparison is the condition of the common skip rule, and its word is the encoder's. -/
theorem comparisonsSkipTwoBytes : Obligations.ComparisonsSkipTwoBytes := by
  unfold Obligations.ComparisonsSkipTwoBytes
  intro s x y kk
  refine ⟨⟨standsFor_of_encode rfl ?_, skipsWhen_of_skipIf rfl beq_iff_eq⟩,
    ⟨standsFor_of_encode rfl ?_, skipsWhen_of_skipIf rfl bne_iff_ne⟩,
    ⟨standsFor_of_encode rfl ?_, skipsWhen_of_skipIf rfl beq_iff_eq⟩,
    ⟨standsFor_of_encode rfl ?_, skipsWhen_of_skipIf rfl bne_iff_ne⟩,
    fun n hpos hlt => ⟨standsForNone_of_comparison (.inl ?_) ?_, standsForNone_of_comparison (.inr ?_) ?_⟩⟩
  case refine_1 | refine_2 =>
    rw [encode, encodeXKK_toNat]
    bv_omega
  case refine_3 | refine_4 =>
    rw [encode, encodeXYN_toNat]
    bv_omega
  all_goals omega

end Sys2Proof.Machine
end

section
/-! PROOFS. The instructions that complete by writing one register: the shape they share, and the loads and adds of a
literal (R33, R145, R200, R201). -/

namespace Sys2Proof.Machine

/-! ### One register written, then `pc` moved on (R33, R145) -/

theorem regsSameBut_setV (s : State) (x : RegIx) (b : Byte) : RegsSameBut [x] s (s.setV x b) :=
  fun _ hr => getV_setV_other s b (List.ne_of_not_mem_cons hr)

/-- An instruction that ends by writing `V[x]` and moving on has the shape of a register write; `x` may be `VF`. -/
theorem setsRegister_of_setV {i : Instr} {x : RegIx} {b : Byte} {r : Nat} {s : State}
    (hexec : exec i s = .next (s.setV x b).advance) (hb : b.toNat = r) : SetsRegister i x r s := by
  refine ⟨_, hexec, ?_, regsSameBut_setV s x b, rfl, (setV_frame s x b).trans (advance_frame _), rfl⟩
  rwa [State.advance_getV, getV_setV_same]

/-- Settles O30: each literal instruction is a register write, its word is the encoder's, and a byte made from the
sum is the sum modulo 256. -/
theorem literalsAreLoadedAndAdded : Obligations.LiteralsAreLoadedAndAdded := by
  unfold Obligations.LiteralsAreLoadedAndAdded
  intro s x kk
  refine ⟨⟨standsFor_of_encode rfl ?_, setsRegister_of_setV rfl rfl⟩,
    ⟨standsFor_of_encode rfl ?_, setsRegister_of_setV rfl (BitVec.toNat_ofNat _ 8)⟩⟩
  all_goals
    rw [encode, encodeXKK_toNat]
    bv_omega

end Sys2Proof.Machine
end

section
/-! PROOFS. The instructions that complete by writing the index register: the shape they share, the address operand as
a number, and the load and the add (R36, R145, R240, R242). -/

namespace Sys2Proof.Machine

/-! ### An address operand given as a number (R101) -/

theorem addressFits_ofNat {nnn : Nat} (h : nnn < 4096) : addressFits (BitVec.ofNat 16 nnn) = true := by
  have htoNat : (BitVec.ofNat 16 nnn).toNat = nnn := Nat.mod_eq_of_lt (by omega)
  simpa [addressFits, htoNat] using h

theorem encodeNNN_ofNat_toNat (op : BitVec 4) {nnn : Nat} (h : nnn < 4096) :
    (encodeNNN op (BitVec.ofNat 16 nnn)).toNat = op.toNat * 4096 + nnn := by
  rw [encodeNNN_toNat, BitVec.toNat_ofNat]
  omega

/-! ### The index register written, then `pc` moved on (R145) -/

/-- An instruction that ends by writing `I` and moving on has the shape of an index write. -/
theorem setsIndex_of_setI {i : Instr} {w : Word} {r : Nat} {s : State}
    (hexec : exec i s = .next (s.setI w).advance) (hw : w.toNat = r) : SetsIndex i r s :=
  ⟨_, hexec, hw, rfl, (setI_frame s w).trans (advance_frame _), rfl⟩

/-- The sum modulo 4096 fits the register's 16 bits (R36, R242). -/
theorem indexPlus_toNat (i : Word) (b : Byte) : (indexPlus i b).toNat = (i.toNat + b.toNat) % 4096 := by
  rw [indexPlus, BitVec.toNat_ofNat]
  omega

/-- Settles O38: each instruction is an index write, and its word is the encoder's; the value written is the operand,
which fits the word's field, or the sum modulo 4096. -/
theorem indexRegisterIsSet : Obligations.IndexRegisterIsSet := by
  unfold Obligations.IndexRegisterIsSet
  intro s nnn x hnnn
  refine ⟨⟨standsFor_of_encode (addressFits_ofNat hnnn) ?_, setsIndex_of_setI rfl ?_⟩,
    ⟨standsFor_of_encode rfl ?_, setsIndex_of_setI rfl (indexPlus_toNat _ _)⟩⟩
  · exact encodeNNN_ofNat_toNat 0xA hnnn
  · exact Nat.mod_eq_of_lt (by omega)
  · rw [encode, encodeXKK_toNat]
    bv_omega

end Sys2Proof.Machine
end

section
/-! PROOFS. The framebuffer: clearing it (R270). -/

namespace Sys2Proof.Machine

/-- Clearing the framebuffer and moving on writes the pixels and `pc`. -/
theorem cleared_frame (s : State) : OnlyChanges [.fb, .pc] s (s.setFB clearFB).advance.signalRedraw :=
  ((setFB_frame s _).trans (advance_frame _)).trans (signalRedraw_frame _)

/-- Settles O46: the state `00E0` answers has the cleared framebuffer, every pixel of which is off; its word is the
encoder's. -/
theorem clearTurnsEveryPixelOff : Obligations.ClearTurnsEveryPixelOff := by
  unfold Obligations.ClearTurnsEveryPixelOff
  refine ⟨standsFor_of_encode rfl rfl, fun s => ?_⟩
  have hpixels (px py : Nat) : (s.setFB clearFB).advance.signalRedraw.pixel px py = false :=
    getPixel_clearFB (py * 64 + px)
  exact ⟨_, rfl, fun px py _ _ => hpixels px py, rfl, cleared_frame s, rfl⟩

end Sys2Proof.Machine
end

section
/-! PROOFS. The loads between a register and the timers (R304, R306, R307). -/

namespace Sys2Proof.Machine

/-- Settles O52: `Fx07` is a register write of the value of `DT`; `Fx15` and `Fx18` write their timer and move on; the
words are the encoder's. -/
theorem timersAreReadAndWritten : Obligations.TimersAreReadAndWritten := by
  unfold Obligations.TimersAreReadAndWritten
  intro s x
  have hdt : OnlyChanges [.dt, .pc] s (s.setDT (s.getV x)).advance := (setDT_frame s _).trans (advance_frame _)
  have hst : OnlyChanges [.st, .pc] s (s.setST (s.getV x)).advance := (setST_frame s _).trans (advance_frame _)
  refine ⟨⟨standsFor_of_encode rfl ?_, setsRegister_of_setV rfl rfl⟩,
    ⟨standsFor_of_encode rfl ?_, _, rfl, rfl, rfl, hdt, rfl⟩,
    ⟨standsFor_of_encode rfl ?_, _, rfl, rfl, rfl, hst, rfl⟩⟩
  all_goals
    rw [encode, encodeXKK_toNat]
    bv_omega

end Sys2Proof.Machine
end

section
/-! PROOFS. The host's calls: what `set_key` does to the latch and to a pending wait (R334, R335), and which parts of the
state each call can write (R330 to R338). -/

namespace Sys2Proof.Machine

/-! ### A press event and the wait state (R334) -/

@[simp] theorem press_waiting_none (x : RegIx) (k : KeyIx) :
    (WaitState.waiting x none).press k = .waiting x (some k) := rfl

/-- A press event passes by every wait state but a wait that has no key yet. -/
theorem press_of_not_pending {w : WaitState} (k : KeyIx) (h : ∀ x, w ≠ .waiting x none) : w.press k = w := by
  cases w with
  | idle => rfl
  | waiting x key =>
    cases key with
    | none => exact absurd rfl (h x)
    | some j => rfl

/-! ### The latch under `set_key` (R334, R335) -/

theorem putKey_frame (s : State) (k : KeyIx) (b : Bool) : OnlyChanges [.keys, .wait] s (s.putKey k b) :=
  onlyChanges_of_eq fun p hp => by cases p <;> simp_all

theorem getKey_putKey_same (s : State) (k : KeyIx) (b : Bool) : (s.putKey k b).keys[k] = b := by
  simp

theorem getKey_putKey_other (s : State) {k j : KeyIx} (b : Bool) (h : j ≠ k) :
    (s.putKey k b).keys[j] = s.keys[j] := by
  have hval : k.val ≠ j.val := fun hkj => h (Fin.ext hkj.symm)
  simp [hval]

/-- A change from released to pressed gives a pending wait its key. -/
theorem putKey_wait_of_press {s : State} {k : KeyIx} {x : RegIx} (hkey : s.keys[k] = false)
    (hwait : s.wait = .waiting x none) : (s.putKey k true).wait = .waiting x (some k) := by
  simp [hkey, hwait]

/-- A release, a key already pressed, and a wait state that is not pending leave the wait state as it is. -/
theorem putKey_wait_of_no_press {s : State} {k : KeyIx} {b : Bool}
    (h : b = false ∨ s.keys[k] = true ∨ ∀ x, s.wait ≠ .waiting x none) : (s.putKey k b).wait = s.wait := by
  rw [State.putKey_wait]
  rcases h with hrelease | hheld | hidle
  · simp [hrelease]
  · simp [hheld]
  · rw [press_of_not_pending k hidle, ite_self]

theorem perform_setKey_of_valid (s : State) (k : KeyIx) (b : Bool) :
    s.perform (.setKey k.val b) = (.done, s.putKey k b) := by
  have hk : (0 : Int) ≤ k.val ∧ (k.val : Int) < 16 := by omega
  simp [State.perform, State.callResult, State.setKey, hk]

theorem perform_setKey_of_invalid (s : State) {index : Int} (b : Bool) (h : index < 0 ∨ 15 < index) :
    s.perform (.setKey index b) = (.failed .invalidKeyIndex, s) := by
  have hk : ¬ (0 ≤ index ∧ index < 16) := by omega
  simp [State.perform, State.callResult, State.setKey, hk]

/-! ### Which parts a call can write -/

/-- The parts of the state that the call can change. -/
def HostCall.writes : HostCall → List Part
  | .initAll => [.mem, .regs, .index, .pc, .stack, .dt, .st, .fb, .keys, .wait, .fault, .draws]
  | .stepOnce => [.mem, .regs, .index, .pc, .stack, .dt, .st, .fb, .wait, .fault, .draws]
  | .loadImage _ => [.mem]
  | .tickTimers => [.dt, .st]
  | .setKey _ _ => [.keys, .wait]
  | .getFramebuffer | .getSoundTimer => []

/-- A call that fails changes nothing (R335, R404). -/
theorem callResult_frame {s : State} {ps : List Part} {r : Except CallError State}
    (h : ∀ t, r = .ok t → OnlyChanges ps s t) : OnlyChanges ps s (s.callResult r).2 := by
  cases r with
  | ok t => exact h t rfl
  | error e => exact onlyChanges_of_eq fun p _ => by cases p <;> simp [State.callResult]

theorem loadImage_frame {s t : State} {bytes : List Byte} (h : s.loadImage bytes = .ok t) :
    OnlyChanges [.mem] s t := by
  unfold State.loadImage at h
  split at h
  · cases h
  · cases h
    exact setMem_frame s _

theorem setKey_frame {s t : State} {index : Int} {b : Bool} (h : s.setKey index b = .ok t) :
    OnlyChanges [.keys, .wait] s t := by
  unfold State.setKey at h
  split at h
  · cases h
    exact putKey_frame s _ b
  · cases h

theorem tickTimers_frame (s : State) : OnlyChanges [.dt, .st] s s.tickTimers :=
  onlyChanges_of_eq fun p hp => by cases p <;> simp_all

theorem perform_stepOnce {s t : State} (h : step s = .next t) : s.perform .stepOnce = (.outcome t.out, t) := by
  simp [State.perform, h]

/-- Of the parts of the state, a step can change all but the key latch (R44). -/
theorem stepOnce_frame (s : State) : OnlyChanges HostCall.stepOnce.writes s (s.perform .stepOnce).2 := by
  obtain ⟨t, hstep⟩ := stepAlwaysAnswersANextState s
  rw [perform_stepOnce hstep]
  refine onlyChanges_of_eq fun p hp => ?_
  cases p with
  | keys => exact (stepsLeaveKeysAndTimersAlone s t hstep).1
  | _ => simp [HostCall.writes] at hp

/-- Every call changes only the parts it can write. -/
theorem perform_writes (s : State) (c : HostCall) : OnlyChanges c.writes s (s.perform c).2 := by
  cases c with
  | initAll => exact fun p hp => by cases p <;> simp [HostCall.writes] at hp
  | stepOnce => exact stepOnce_frame s
  | loadImage bytes => exact callResult_frame fun _ => loadImage_frame
  | tickTimers => exact tickTimers_frame s
  | setKey index b => exact callResult_frame fun _ => setKey_frame
  | getFramebuffer | getSoundTimer => exact fun p _ => by cases p <;> simp [Part.Same, State.perform]

theorem keys_mem_writes {c : HostCall} (h : .keys ∈ c.writes) : c = .initAll ∨ ∃ k b, c = .setKey k b := by
  cases c <;> simp [HostCall.writes] at h ⊢

theorem fb_mem_writes {c : HostCall} (h : .fb ∈ c.writes) : c = .initAll ∨ c = .stepOnce := by
  cases c <;> simp [HostCall.writes] at h ⊢

/-! ### The statements -/

/-- Settles O54: an index of the latch puts that key, any other is rejected, and of the other calls only `initialize()`
can write the latch. -/
theorem setKeyUpdatesTheLatch : Obligations.SetKeyUpdatesTheLatch := by
  unfold Obligations.SetKeyUpdatesTheLatch
  refine fun s index pressed => ⟨?valid, fun hindex => ?invalid, fun c hinit hset => ?otherCalls⟩
  case valid =>
    rintro k rfl
    refine ⟨s.putKey k pressed, perform_setKey_of_valid s k pressed, getKey_putKey_same s k pressed,
      fun j hj => getKey_putKey_other s pressed hj, ?_, putKey_wait_of_no_press, putKey_frame s k pressed⟩
    rintro x rfl hkey hwait
    exact putKey_wait_of_press hkey hwait
  case invalid => exact perform_setKey_of_invalid s pressed hindex
  case otherCalls =>
    refine perform_writes s c .keys fun hmem => ?_
    obtain hc | ⟨k, b, hc⟩ := keys_mem_writes hmem
    · exact hinit hc
    · exact hset k b hc

/-- Settles O57: the getters answer `FB` and `ST` in the same state, and the framebuffer is a part that only a step and
`initialize()` can write. -/
theorem gettersChangeNothing : Obligations.GettersChangeNothing := by
  unfold Obligations.GettersChangeNothing
  refine fun s => ⟨⟨s.fb, rfl, fun px py _ _ => rfl⟩, rfl, fun c hinit hstep => ?_⟩
  exact perform_writes s c .fb fun hmem => (fb_mem_writes hmem).elim hinit hstep

end Sys2Proof.Machine
end

section
/-! PROOFS. The host's `load_image`: the state it answers where the image fits, and its rejection where it does not
(R403, R404, R406). -/

namespace Sys2Proof.Machine

theorem perform_loadImage_of_fits (s : State) {bytes : List Byte} (h : bytes.length ≤ Config.imageMax) :
    s.perform (.loadImage bytes) = (.done, s.setMem (writeBytes s.mem Config.imageBase bytes)) := by
  simp only [State.perform, State.loadImage, if_neg (Nat.not_lt.mpr h), State.callResult]

theorem perform_loadImage_of_tooLarge (s : State) {bytes : List Byte} (h : Config.imageMax < bytes.length) :
    s.perform (.loadImage bytes) = (.failed .imageTooLarge, s) := by
  simp only [State.perform, State.loadImage, if_pos h, State.callResult]

/-- Settles O56: an image that fits is one block write, which ends inside memory; inside the block the bytes read are
the image's, outside it they are the old ones. -/
theorem imageIsLoadedVerbatim : Obligations.ImageIsLoadedVerbatim := by
  unfold Obligations.ImageIsLoadedVerbatim
  refine fun s bytes => ⟨fun hfits => ?fits, perform_loadImage_of_tooLarge s⟩
  case fits =>
    have hend : 0x200 + bytes.length ≤ Config.memSize := Nat.add_le_of_le_sub' (by decide) hfits
    refine ⟨_, perform_loadImage_of_fits s hfits, fun k hk => ?_,
      readByte_writeBytes_outside bytes s.mem 0x200, setMem_frame s _⟩
    rw [List.getD_eq_getElem bytes 0 hk]
    exact readByte_writeBytes_inside bytes s.mem 0x200 k hk hend

end Sys2Proof.Machine
end

section
/-! PROOFS. Runs of the block: every call of the host keeps the invariant, and so does every sequence of them (R339). -/

namespace Sys2Proof.Machine

/-- A press event neither starts a wait nor ends one (R334). -/
theorem press_eq_idle {w : WaitState} {k : KeyIx} : w.press k = .idle ↔ w = .idle := by
  cases w with
  | idle => exact Iff.rfl
  | waiting x key => cases key <;> simp [WaitState.press]

/-- `set_key` neither starts a wait nor ends one (R334). -/
theorem putKey_wait_eq_idle (s : State) (k : KeyIx) (b : Bool) : (s.putKey k b).wait = .idle ↔ s.wait = .idle := by
  rw [State.putKey_wait]
  split
  · exact press_eq_idle
  · exact Iff.rfl

/-- Memory in canonical form, the timers, the key latch and the key of a wait are free under the invariant: it speaks
only of whether a wait is pending. -/
theorem State.Inv.hostWrites {s : State} (h : s.Inv) {m : Memory} (hm : m.wf) (dt st : Byte) (keys : Vector Bool 16)
    {w : WaitState} (hw : w = .idle ↔ s.wait = .idle) :
    ({ s with mem := m, dt := dt, st := st, keys := keys, wait := w } : State).Inv where
  memory := hm
  index := h.index
  pc := h.pc
  returns := h.returns
  waitAddress := fun hwait => h.waitAddress (mt hw.mpr hwait)
  waitExcludesFault := h.waitExcludesFault.imp_left hw.mpr
  records := h.records

/-- The reset call gives a state about to fetch at 0x200, whatever the state before. -/
theorem reinit_ready (s : State) : s.reinit.Ready :=
  ready_of reset_mem_wf (show (0 : Word).toNat ≤ 0xFFF by decide) (fun k hk => absurd hk (Nat.not_lt_zero k))
    ⟨⟨rfl, rfl⟩, show Config.pcReset.toNat < 0xFFF by decide⟩

theorem State.Inv.putKey {s : State} (h : s.Inv) (k : KeyIx) (b : Bool) : (s.putKey k b).Inv :=
  h.hostWrites h.memory s.dt s.st _ (putKey_wait_eq_idle s k b)

/-- A call that fails changes nothing, so that the invariant is asked only of the state it answers (R335, R404). -/
theorem State.Inv.callResult {s : State} (h : s.Inv) {r : Except CallError State} (hr : ∀ t, r = .ok t → t.Inv) :
    (s.callResult r).2.Inv := by
  cases r with
  | ok t => exact hr t rfl
  | error e => exact h

theorem State.Inv.loadImage {s t : State} (h : s.Inv) {bytes : List Byte} (ht : s.loadImage bytes = .ok t) : t.Inv := by
  unfold State.loadImage at ht
  split at ht
  · cases ht
  · cases ht
    exact h.hostWrites (writeBytes_wf bytes _ h.memory) s.dt s.st s.keys Iff.rfl

theorem State.Inv.setKey {s t : State} (h : s.Inv) {index : Int} {b : Bool} (ht : s.setKey index b = .ok t) :
    t.Inv := by
  unfold State.setKey at ht
  split at ht
  · cases ht
    exact h.putKey _ b
  · cases ht

/-- Every call of the host keeps the invariant. -/
theorem State.Inv.perform {s : State} (h : s.Inv) (c : HostCall) : (s.perform c).2.Inv := by
  cases c with
  | initAll => exact (reinit_ready s).inv
  | loadImage bytes => exact h.callResult fun _ => h.loadImage
  | stepOnce =>
    obtain ⟨t, hstep⟩ := stepAlwaysAnswersANextState s
    rw [perform_stepOnce hstep]
    exact stepKeepsTheInvariant s t h hstep
  | tickTimers => exact h.hostWrites h.memory _ _ s.keys Iff.rfl
  | setKey index b => exact h.callResult fun _ => h.setKey
  | getFramebuffer | getSoundTimer => exact h

/-- Settles O5, by induction on the calls. -/
theorem everyRunKeepsTheInvariant : Obligations.EveryRunKeepsTheInvariant := by
  unfold Obligations.EveryRunKeepsTheInvariant
  intro s calls h
  induction calls generalizing s with
  | nil => exact h
  | cons c rest ih => exact ih _ (h.perform c)

end Sys2Proof.Machine
end

section
/-! PROOFS. How an instruction ends: by raising a fatal error and doing nothing else, or by completing, with the outcome
and the move of `pc` that go with it (R145, R149, R365). From this the statements about outcomes and faults. -/

namespace Sys2Proof

/-- The outcome with which the instruction completes (R149, R270, R272, R305). -/
def Instr.outcome : Instr → Machine.StepOutcome
  | .cls | .drw _ _ _ => ⟨true, false, false, .noError⟩
  | .ldVxK _ => ⟨false, false, true, .noError⟩
  | _ => .quiet

/-- Where `pc` may stand when the instruction completes at `pc` (R145, R173); free for the control transfers and for the
wait. -/
def Instr.MovesPc (pc target : Word) : Instr → Prop
  | .ret | .jp _ | .call _ | .jpV0 _ | .ldVxK _ => True
  | .seImm _ _ | .sneImm _ _ | .seReg _ _ | .sneReg _ _ | .skp _ | .sknp _ => target = pc + 2 ∨ target = pc + 4
  | _ => target = pc + 2

end Sys2Proof

namespace Sys2Proof.Machine

/-- The instruction completes: it raises nothing, and has its own outcome and move of `pc`. -/
structure Completes (i : Instr) (s t : State) : Prop where
  fault : t.fault = s.fault
  out : t.out = i.outcome
  moves : i.MovesPc s.pc t.pc

/-- The two ends of an instruction. -/
def Ends (i : Instr) (s t : State) : Prop := Completes i s t ∨ ∃ e, t = s.fatal e

theorem skipIf_pc_cases (s : State) (b : Bool) : (s.skipIf b).pc = s.pc + 2 ∨ (s.skipIf b).pc = s.pc + 4 := by
  cases b with
  | false => exact .inl rfl
  | true => exact .inr (BitVec.add_assoc s.pc 2 2)

theorem completes_advance {i : Instr} {s t : State} (hfault : t.fault = s.fault) (hpc : t.pc = s.pc)
    (hout : i.outcome = .quiet) (hmoves : i.MovesPc s.pc (s.pc + 2)) : Completes i s t.advance :=
  ⟨hfault, hout.symm, by rwa [State.advance_pc, hpc]⟩

theorem ends_ifInMemory {i : Instr} {s t : State} (len : Nat) (h : Completes i s t) : Ends i s (s.ifInMemory len t) := by
  rcases ifInMemory_cases s len t with ⟨-, heq⟩ | ⟨a, -, heq⟩ <;> rw [heq]
  · exact .inl h
  · exact .inr ⟨_, rfl⟩

theorem KeyTestEnds.ends {wanted : Bool → Bool} {x : RegIx} {s : State} {r : Result} {i : Instr}
    (h : KeyTestEnds wanted x s r) (hi : ∀ b, Completes i s (s.skipIf b)) : ∃ t, r = .next t ∧ Ends i s t := by
  rcases h with ⟨k, -, h⟩ | ⟨-, h⟩
  · exact ⟨_, h, .inl (hi _)⟩
  · exact ⟨_, h, .inr ⟨_, rfl⟩⟩

theorem execRet_ends (s : State) : ∃ t, execRet s = .next t ∧ Ends .ret s t := by
  rcases execRet_cases s with ⟨v, t, hpop, h⟩ | ⟨-, h⟩
  · exact ⟨_, h, .inl ⟨pop_frame s hpop .fault (by simp), rfl, trivial⟩⟩
  · exact ⟨_, h, .inr ⟨_, rfl⟩⟩

theorem execCall_ends (nnn : Word) (s : State) : ∃ t, execCall nnn s = .next t ∧ Ends (.call nnn) s t := by
  rcases execCall_cases nnn s with ⟨t, hpush, h⟩ | ⟨-, h⟩
  · exact ⟨_, h, .inl ⟨push_frame s hpush .fault (by simp), rfl, trivial⟩⟩
  · exact ⟨_, h, .inr ⟨_, rfl⟩⟩

/-- Every instruction completes or raises. -/
theorem exec_ends (i : Instr) (s : State) : ∃ t, exec i s = .next t ∧ Ends i s t := by
  cases i with
  | ret => exact execRet_ends s
  | call nnn => exact execCall_ends nnn s
  | skp x => exact (execSkp_ends x s).ends fun b => ⟨rfl, rfl, skipIf_pc_cases s b⟩
  | sknp x => exact (execSknp_ends x s).ends fun b => ⟨rfl, rfl, skipIf_pc_cases s b⟩
  | seImm | sneImm | seReg | sneReg => exact ⟨_, rfl, .inl ⟨rfl, rfl, skipIf_pc_cases s _⟩⟩
  | drw | ldBVx | storeRegs => exact ⟨_, rfl, ends_ifInMemory _ ⟨rfl, rfl, rfl⟩⟩
  | loadRegs x =>
    exact ⟨_, rfl, ends_ifInMemory _ (completes_advance (s.setRegsUpTo_fault x _) (s.setRegsUpTo_pc x _) rfl rfl)⟩
  | jp | jpV0 | ldVxK => exact ⟨_, rfl, .inl ⟨rfl, rfl, trivial⟩⟩
  | _ => exact ⟨_, rfl, .inl ⟨rfl, rfl, rfl⟩⟩

theorem ends_of_exec {i : Instr} {s t : State} (h : exec i s = .next t) : Ends i s t :=
  of_exists_next (exec_ends i s) h

/-- From a state with no fault, an instruction that leaves none has completed. -/
theorem completes_of_no_fault {i : Instr} {s t : State} (h : exec i s = .next t) (ht : t.fault = none) :
    Completes i s t := by
  rcases ends_of_exec h with hdone | ⟨e, rfl⟩
  · exact hdone
  · cases ht

/-- Settles O29: an instruction that leaves no fault has completed, and only the skips have a choice of target. -/
theorem defaultAdvanceIsTwo : Obligations.DefaultAdvanceIsTwo := by
  unfold Obligations.DefaultAdvanceIsTwo
  intro i s t _ hexec ht hret hjp hcall hjpV0 hwait
  have hmoves := (completes_of_no_fault hexec ht).moves
  cases i with
  | ret => exact absurd rfl hret
  | jp a => exact absurd rfl (hjp a)
  | call a => exact absurd rfl (hcall a)
  | jpV0 a => exact absurd rfl (hjpV0 a)
  | ldVxK x => exact absurd rfl (hwait x)
  | seImm | sneImm | seReg | sneReg | skp | sknp => exact hmoves.imp_right fun h => ⟨h, by simp⟩
  | _ => exact .inl hmoves

/-- Settles O19: of the ways a step can go, those that leave a fault where none was are raising one. -/
theorem fatalErrorsArePrecise : Obligations.FatalErrorsArePrecise := by
  unfold Obligations.FatalErrorsArePrecise
  intro s t e hs hstep ht
  have hold (h : s.fault = some e) : Raises e s t := by rw [hs] at h; cases h
  cases step_cases hstep with
  | latched | pending | completed | unknown => exact hold ht
  | fetchBeyond =>
    cases ht
    exact fatal_raises s _
  | ran i _ _ hexec =>
    rcases ends_of_exec hexec with hdone | ⟨e', rfl⟩
    · exact hold (hdone.fault ▸ ht)
    · cases ht
      exact fatal_raises s _

end Sys2Proof.Machine
end

section
/-! PROOFS. The words that stand for no instruction, and the opcode map as match and mask: the decoder rejects exactly
the words of rule R112, and those are the words that select no row (R110, R112). -/

namespace Sys2Proof.Machine

section families
variable {w : Word}

/-! ### What each family of the decoder rejects (R105, R112) -/

theorem decode0_rejects : decode0 w = .reject (.unknownOpcode w) ↔ w.toNat ≠ 0x00E0 ∧ w.toNat ≠ 0x00EE := by
  have hcls : w = 0x00E0 ↔ w.toNat = 0x00E0 := BitVec.toNat_eq
  have hret : w = 0x00EE ↔ w.toNat = 0x00EE := BitVec.toNat_eq
  simp only [decode0, hcls, hret]
  split_ifs <;> simp [*]

theorem decode8_rejects : decode8 w = .reject (.unknownOpcode w) ↔ 7 < fieldN w ∧ fieldN w ≠ 0xE := by
  unfold decode8
  split
  case h_10 =>
    simp only [imp_false] at *
    exact iff_of_true trivial (by omega)
  all_goals simp [*]

theorem decodeE_rejects :
    decodeE w = .reject (.unknownOpcode w) ↔ (fieldKK w).toNat ≠ 0x9E ∧ (fieldKK w).toNat ≠ 0xA1 := by
  unfold decodeE
  split
  case h_3 hskp hsknp => exact iff_of_true rfl ⟨hskp, hsknp⟩
  all_goals simp [*]

theorem decodeF_rejects :
    decodeF w = .reject (.unknownOpcode w) ↔
      ∀ kk ∈ [0x07, 0x0A, 0x15, 0x18, 0x1E, 0x29, 0x33, 0x55, 0x65], (fieldKK w).toNat ≠ kk := by
  unfold decodeF
  split
  case h_10 =>
    simp only [imp_false] at *
    simp [*]
  all_goals simp [*]

end families

/-- A word in no other family is in the last one. -/
theorem fieldOp_eq_15 {w : Word} (h : ∀ op < 15, fieldOp w ≠ op) : fieldOp w = 15 := by
  have hlt : fieldOp w < 16 := (w.extractLsb' 12 4).isLt
  by_contra hne
  exact h (fieldOp w) (by omega) rfl

/-- The list of R112 by the fields of the word (R101). -/
theorem unknownWord_iff (w : Word) :
    UnknownWord w ↔
      (fieldOp w = 0 ∧ w.toNat ≠ 0x00E0 ∧ w.toNat ≠ 0x00EE) ∨ ((fieldOp w = 5 ∨ fieldOp w = 9) ∧ fieldN w ≠ 0) ∨
        (fieldOp w = 8 ∧ 7 < fieldN w ∧ fieldN w ≠ 0xE) ∨
        (fieldOp w = 0xE ∧ (fieldKK w).toNat ≠ 0x9E ∧ (fieldKK w).toNat ≠ 0xA1) ∨
        (fieldOp w = 0xF ∧
          ∀ kk ∈ [0x07, 0x0A, 0x15, 0x18, 0x1E, 0x29, 0x33, 0x55, 0x65], (fieldKK w).toNat ≠ kk) := by
  have hn : (7 < w.toNat % 16 ∧ w.toNat % 16 ≠ 0xE) ↔ (w.toNat % 16 = 8 ∨ w.toNat % 16 = 9 ∨ w.toNat % 16 = 0xA ∨
      w.toNat % 16 = 0xB ∨ w.toNat % 16 = 0xC ∨ w.toNat % 16 = 0xD ∨ w.toNat % 16 = 0xF) := by omega
  simp [UnknownWord, fieldOp_eq, fieldN_eq, fieldKK_toNat, hn]

/-- Settles O11, by the families of the decoder. -/
theorem unknownWordsAreThoseOfTheList : Obligations.UnknownWordsAreThoseOfTheList := by
  unfold Obligations.UnknownWordsAreThoseOfTheList
  intro w
  rw [unknownWord_iff]
  unfold decode
  split
  case h_1 hop => simp [hop, decode0_rejects]
  case h_6 hop | h_10 hop => simp [hop]
  case h_9 hop => simp [hop, decode8_rejects]
  case h_15 hop => simp [hop, decodeE_rejects]
  case h_16 =>
    have hop : fieldOp w = 15 := by
      apply fieldOp_eq_15
      intro op hlt
      interval_cases op <;> assumption
    simp [hop, decodeF_rejects]
  case h_2 hop | h_3 hop | h_4 hop | h_5 hop | h_7 hop | h_8 hop | h_11 hop | h_12 hop | h_13 hop | h_14 hop =>
    simp [hop]

/-! ### The opcode map (R110) -/

/-- Why a word is rejected: it is unknown (R112). -/
theorem reject_of_decode {w : Word} {r : Reject} (h : decode w = .reject r) : r = .unknownOpcode w := by
  unfold decode decode0 decode8 decodeE decodeF at h
  repeat' split at h
  all_goals cases h
  all_goals rfl

/-- The word of every instruction selects the instruction's row, constructor by constructor. -/
theorem encode_selects_row (i : Instr) : Laws.EncodeSelectsRow.Statement i := by
  cases i
  case cls => exact Laws.EncodeSelectsRow.cls
  case ret => exact Laws.EncodeSelectsRow.ret
  case jp => exact Laws.EncodeSelectsRow.jp _
  case call => exact Laws.EncodeSelectsRow.call _
  case seImm => exact Laws.EncodeSelectsRow.seImm _ _
  case sneImm => exact Laws.EncodeSelectsRow.sneImm _ _
  case seReg => exact Laws.EncodeSelectsRow.seReg _ _
  case ldImm => exact Laws.EncodeSelectsRow.ldImm _ _
  case addImm => exact Laws.EncodeSelectsRow.addImm _ _
  case ldReg => exact Laws.EncodeSelectsRow.ldReg _ _
  case orReg => exact Laws.EncodeSelectsRow.orReg _ _
  case andReg => exact Laws.EncodeSelectsRow.andReg _ _
  case xorReg => exact Laws.EncodeSelectsRow.xorReg _ _
  case addReg => exact Laws.EncodeSelectsRow.addReg _ _
  case subReg => exact Laws.EncodeSelectsRow.subReg _ _
  case shr => exact Laws.EncodeSelectsRow.shr _ _
  case subnReg => exact Laws.EncodeSelectsRow.subnReg _ _
  case shl => exact Laws.EncodeSelectsRow.shl _ _
  case sneReg => exact Laws.EncodeSelectsRow.sneReg _ _
  case ldI => exact Laws.EncodeSelectsRow.ldI _
  case jpV0 => exact Laws.EncodeSelectsRow.jpV0 _
  case rnd => exact Laws.EncodeSelectsRow.rnd _ _
  case drw => exact Laws.EncodeSelectsRow.drw _ _ _
  case skp => exact Laws.EncodeSelectsRow.skp _
  case sknp => exact Laws.EncodeSelectsRow.sknp _
  case ldVxDT => exact Laws.EncodeSelectsRow.ldVxDT _
  case ldVxK => exact Laws.EncodeSelectsRow.ldVxK _
  case ldDTVx => exact Laws.EncodeSelectsRow.ldDTVx _
  case ldSTVx => exact Laws.EncodeSelectsRow.ldSTVx _
  case addIVx => exact Laws.EncodeSelectsRow.addIVx _
  case ldFVx => exact Laws.EncodeSelectsRow.ldFVx _
  case ldBVx => exact Laws.EncodeSelectsRow.ldBVx _
  case storeRegs => exact Laws.EncodeSelectsRow.storeRegs _
  case loadRegs => exact Laws.EncodeSelectsRow.loadRegs _

/-- The row that a decoded word selects. -/
theorem selects_row_of_decode {w : Word} {i : Instr} (h : decode w = .instr i) :
    ∃ r ∈ opcodeMap, r.row = i.rowNumber ∧ r.selects w = true := by
  rw [← encode_of_decode h]
  exact encode_selects_row i

/-- Two rows that one word selects agree where both masks look, and no two rows of the map do. -/
theorem row_unique {w : Word} {r q : OpRow} (hr : r ∈ opcodeMap) (hq : q ∈ opcodeMap) (hrw : r.selects w = true)
    (hqw : q.selects w = true) : r = q := by
  have hdisjoint : ∀ r ∈ opcodeMap, ∀ q ∈ opcodeMap, r.pattern &&& q.mask = q.pattern &&& r.mask → r = q := by decide
  simp only [OpRow.selects, decide_eq_true_eq] at hrw hqw
  refine hdisjoint r hr q hq ?_
  rw [← hrw, ← hqw, BitVec.and_assoc, BitVec.and_assoc, BitVec.and_comm r.mask]

/-! ### The fields that a mask lets through (R101) -/

section masks
variable {w mask : Word}

theorem fieldOp_and (h : mask.extractLsb' 12 4 = BitVec.allOnes 4) : fieldOp (w &&& mask) = fieldOp w := by
  rw [fieldOp, BitVec.extractLsb'_and, h, BitVec.and_allOnes, fieldOp]

theorem fieldN_and (h : mask.extractLsb' 0 4 = BitVec.allOnes 4) : fieldN (w &&& mask) = fieldN w := by
  rw [fieldN, BitVec.extractLsb'_and, h, BitVec.and_allOnes, fieldN]

theorem fieldKK_and (h : mask.extractLsb' 0 8 = BitVec.allOnes 8) : fieldKK (w &&& mask) = fieldKK w := by
  rw [fieldKK, BitVec.extractLsb'_and, h, BitVec.and_allOnes, fieldKK]

end masks

/-- The kinds of rows: the mask looks at the opcode nibble alone where no word of the family is unknown; at the low
nibble or the low byte too where the family is selected by it; and at the whole word in the family 0. -/
theorem opcodeMap_kinds : ∀ r ∈ opcodeMap,
    (r.mask = 0xF000 ∧ fieldOp r.pattern ∉ [0, 5, 8, 9, 0xE, 0xF]) ∨
      (r.mask = 0xF00F ∧ fieldOp r.pattern ∈ [5, 8, 9]) ∨ (r.mask = 0xF0FF ∧ fieldOp r.pattern ∈ [0xE, 0xF]) ∨
      r.mask = 0xFFFF := by
  decide

/-- No row's own pattern is unknown. -/
theorem pattern_known {r : OpRow} (hr : r ∈ opcodeMap) : ¬ UnknownWord r.pattern := by
  have hdecode : ∀ r ∈ opcodeMap, decode r.pattern ≠ .reject (.unknownOpcode r.pattern) := by decide
  rw [← unknownWordsAreThoseOfTheList]
  exact hdecode r hr

/-- A word that selects a row of the opcode map is not unknown: else the row's pattern, which agrees with it in what the
family looks at, would be unknown too. -/
theorem not_unknown_of_selects {w : Word} {r : OpRow} (hr : r ∈ opcodeMap) (hw : r.selects w = true) :
    ¬ UnknownWord w := by
  have hpattern := pattern_known hr
  have hkinds := opcodeMap_kinds r hr
  simp only [OpRow.selects, decide_eq_true_eq] at hw
  rw [← hw] at hpattern hkinds
  rw [unknownWord_iff] at hpattern ⊢
  rcases hkinds with ⟨hmask, hop⟩ | ⟨hmask, hop⟩ | ⟨hmask, hop⟩ | hmask <;> rw [hmask] at hpattern
  · rw [hmask, fieldOp_and (by decide)] at hop
    simp only [List.mem_cons, List.not_mem_nil, or_false, not_or] at hop
    obtain ⟨h0, h5, h8, h9, hE, hF⟩ := hop
    simp [h0, h5, h8, h9, hE, hF]
  · rw [hmask, fieldOp_and (by decide)] at hop
    rw [fieldOp_and (by decide), fieldN_and (by decide)] at hpattern
    simp only [List.mem_cons, List.not_mem_nil, or_false] at hop
    rcases hop with hop | hop | hop <;> simpa [hop] using hpattern
  · rw [hmask, fieldOp_and (by decide)] at hop
    rw [fieldOp_and (by decide), fieldKK_and (by decide)] at hpattern
    simp only [List.mem_cons, List.not_mem_nil, or_false] at hop
    rcases hop with hop | hop <;> simpa [hop] using hpattern
  · rwa [show (0xFFFF : Word) = BitVec.allOnes 16 from rfl, BitVec.and_allOnes] at hpattern

/-- Settles O9: a word is decoded exactly when it selects a row, and then to the instruction of that row, which is the
only one. -/
theorem decodeFollowsTheOpcodeMap : Obligations.DecodeFollowsTheOpcodeMap := by
  unfold Obligations.DecodeFollowsTheOpcodeMap
  refine fun w => ⟨fun r hr hw => ?_, fun hnone => ?_, fun r hr q hq => row_unique hr hq⟩
  · cases hdecode : decode w with
    | reject e =>
      cases reject_of_decode hdecode
      exact absurd ((unknownWordsAreThoseOfTheList w).mp hdecode) (not_unknown_of_selects hr hw)
    | instr i =>
      obtain ⟨q, hq, hrow, hqw⟩ := selects_row_of_decode hdecode
      exact ⟨i, rfl, row_unique hr hq hw hqw ▸ hrow.symm⟩
  · cases hdecode : decode w with
    | reject e => rw [reject_of_decode hdecode]
    | instr i =>
      obtain ⟨q, hq, -, hqw⟩ := selects_row_of_decode hdecode
      exact absurd hqw (by simp [hnone q hq])

end Sys2Proof.Machine
end

section
/-! PROOFS. The outcome of a step, field by field (R331), and the ways a step runs no instruction (R141, R142). -/

namespace Sys2Proof.Machine

/-! ### The outcome with which an instruction completes -/

theorem outcome_halted (i : Instr) : i.outcome.halted = false := by
  cases i <;> rfl

theorem outcome_error (i : Instr) : i.outcome.error = .noError := by
  cases i <;> rfl

theorem outcome_redraw (i : Instr) : i.outcome.redraw = true ↔ i = .cls ∨ ∃ x y n, i = .drw x y n := by
  cases i <;> simp [Instr.outcome, StepOutcome.quiet]

theorem outcome_waiting (i : Instr) : i.outcome.waiting = true ↔ ∃ x, i = .ldVxK x := by
  cases i <;> simp [Instr.outcome, StepOutcome.quiet]

theorem outcome_not_both (i : Instr) : ¬ (i.outcome.redraw = true ∧ i.outcome.waiting = true) := by
  rw [outcome_redraw, outcome_waiting]
  rintro ⟨rfl | ⟨x, y, n, rfl⟩, z, hz⟩ <;> cases hz

/-- `Fx0A` raises nothing (R305). -/
theorem ldVxK_not_fatal {x : RegIx} {s : State} {e : FatalError} : exec (.ldVxK x) s ≠ .next (s.fatal e) := by
  intro h
  have hout := congrArg State.out (Host.Outcome.next.inj h)
  cases hout

/-! ### What a step fetches -/

section fetching
variable {s : State} {i j : Instr}

theorem not_fetches_of_fault {e : FatalError} (h : s.fault = some e) : ¬ s.Fetches :=
  fun hfetch => by simpa [h] using hfetch.1.1

theorem not_fetches_of_wait {x : RegIx} {key : Option KeyIx} (h : s.wait = .waiting x key) : ¬ s.Fetches :=
  fun hfetch => by simpa [h] using hfetch.1.2

theorem not_runs_of_not_fetches (h : ¬ s.Fetches) (i : Instr) : ¬ s.Runs i := fun hruns => h hruns.1

theorem not_runs_of_reject {r : Reject} (h : decode s.fetchWord = .reject r) (i : Instr) : ¬ s.Runs i :=
  fun hruns => by simpa [h] using hruns.2

/-- A step fetches one instruction. -/
theorem State.Runs.iff_eq (h : s.Runs i) : s.Runs j ↔ i = j := by
  constructor
  · intro hj
    exact Decoded.instr.inj (h.2.symm.trans hj.2)
  · rintro rfl
    exact h

theorem State.Runs.not_unknown (h : s.Runs i) : ¬ UnknownWord s.fetchWord := by
  rw [← unknownWordsAreThoseOfTheList, h.2]
  exact nofun

end fetching

/-- Settles O18, by the ways a step can go: those that fetch nothing report the latch, the wait or the failed fetch; a
fetched word is reported, or its instruction raises, or it completes with its own outcome. -/
theorem outcomeFieldsSayWhatHappened : Obligations.OutcomeFieldsSayWhatHappened := by
  unfold Obligations.OutcomeFieldsSayWhatHappened
  intro s t hstep
  cases step_cases hstep with
  | latched e hfault =>
    have hfetch := not_fetches_of_fault hfault
    simp [hfault, hfetch]
  | pending x hfault hwait =>
    have hfetch := not_fetches_of_wait hwait
    simp [hfault, hwait, hfetch, not_runs_of_not_fetches hfetch]
  | completed x k hfault hwait =>
    have hfetch := not_fetches_of_wait hwait
    simp [hfault, hwait, hfetch, not_runs_of_not_fetches hfetch, StepOutcome.quiet]
  | fetchBeyond hrun hpc =>
    obtain ⟨hfault, hwait⟩ := hrun
    have hfetch : ¬ s.Fetches := fun hfetch => Nat.not_lt.mpr hpc hfetch.2
    simp [hwait, hfetch, not_runs_of_not_fetches hfetch]
  | unknown r hfetch hdecode =>
    have hunknown : UnknownWord s.fetchWord :=
      (unknownWordsAreThoseOfTheList _).mp (reject_of_decode hdecode ▸ hdecode)
    have hruns := not_runs_of_reject hdecode
    obtain ⟨hfault, hwait⟩ := hfetch.1
    have hword (w : Word) : s.fetchWord = w ↔ UnknownWord w ∧ s.fetchWord = w :=
      ⟨fun h => ⟨h ▸ hunknown, h⟩, fun h => h.2⟩
    simp [hfault, hwait, hfetch, hruns, ← hword]
  | ran i _ hruns hexec =>
    obtain ⟨hfault, hwait⟩ := hruns.1.1
    have hknown (w : Word) : ¬ (s.Fetches ∧ UnknownWord w ∧ s.fetchWord = w) := by
      rintro ⟨-, hunknown, rfl⟩
      exact hruns.not_unknown hunknown
    rcases ends_of_exec hexec with hdone | ⟨e, rfl⟩
    · have hfault' := hdone.fault.trans hfault
      simpa [hdone.out, hfault', hfault, hwait, outcome_halted, outcome_error, outcome_redraw, outcome_waiting,
        hknown, hruns.iff_eq] using outcome_not_both i
    · have hwaits (x : RegIx) : ¬ s.Runs (.ldVxK x) := by
        rw [hruns.iff_eq]
        rintro rfl
        exact ldVxK_not_fatal hexec
      simp [hwait, hknown, hwaits]

/-! ### Steps that run no instruction, and the step that runs one -/

/-- Settles O13: that instruction's meaning answers a next state, to which the step goes. -/
theorem stepRunsTheDecodedInstruction : Obligations.StepRunsTheDecodedInstruction := by
  unfold Obligations.StepRunsTheDecodedInstruction
  intro s i hruns
  obtain ⟨t, hexec, -⟩ := exec_writes i s
  rw [hexec]
  exact (StepCase.ran i t hruns hexec).step_eq

theorem reportFault_frame (s : State) (e : FatalError) : OnlyChanges [] s (s.reportFault e) :=
  onlyChanges_of_eq fun p _ => by cases p <;> simp

theorem reportWaiting_frame (s : State) : OnlyChanges [] s s.reportWaiting :=
  onlyChanges_of_eq fun p _ => by cases p <;> simp

theorem completeWait_frame (s : State) (x : RegIx) (k : KeyIx) :
    OnlyChanges [.regs, .pc, .wait] s (s.completeWait x k) :=
  onlyChanges_of_eq fun p hp => by cases p <;> simp_all

theorem completeWait_getV (s : State) (x r : RegIx) (k : KeyIx) :
    (s.completeWait x k).getV r = if r = x then BitVec.ofNat 8 k.val else s.getV r :=
  getV_setV { s with wait := .idle } x r _

/-- A key index fits a register. -/
theorem toNat_ofNat_key (k : KeyIx) : (BitVec.ofNat 8 k.val).toNat = k.val :=
  Nat.mod_eq_of_lt (by omega)

/-- Settles O15: the step is the report of the fault. -/
theorem latchedFaultChangesNothing : Obligations.LatchedFaultChangesNothing :=
  fun s e hfault => ⟨_, (StepCase.latched e hfault).step_eq, reportFault_frame s e, s.reportFault_out e⟩

/-- What the completing step of a wait does (R142). -/
theorem step_of_wait_with_key {s : State} {x : RegIx} {k : KeyIx} (hfault : s.fault = none)
    (hwait : s.wait = .waiting x (some k)) :
    ∃ t, step s = .next t ∧ (t.getV x).toNat = k.val ∧ RegsSameBut [x] s t ∧ t.pc = s.pc + 2 ∧ t.wait = .idle ∧
      OnlyChanges [.regs, .pc, .wait] s t ∧ t.out = .quiet := by
  refine ⟨_, (StepCase.completed x k hfault hwait).step_eq, ?_, fun r hr => ?_, rfl, rfl, completeWait_frame s x k, rfl⟩
  · rw [completeWait_getV, if_pos rfl, toNat_ofNat_key]
  · rw [completeWait_getV, if_neg (List.ne_of_not_mem_cons hr)]

/-- Settles O16: a wait with no key is reported, one with a key completes. -/
theorem pendingWaitStepDoesNotFetch : Obligations.PendingWaitStepDoesNotFetch :=
  fun s x hfault =>
    ⟨fun hwait => ⟨_, (StepCase.pending x hfault hwait).step_eq, reportWaiting_frame s, s.reportWaiting_out⟩,
      fun _ hwait => step_of_wait_with_key hfault hwait⟩

/-! ### A latched fault under the host's calls (R367) -/

/-- Under a latched fault a call other than the reset call writes memory, the timers, the keys and the wait at most: a
step only reports. -/
theorem perform_frame_of_fault {s : State} {e : FatalError} {c : HostCall} (hfault : s.fault = some e)
    (hc : c ≠ .initAll) : OnlyChanges [.mem, .dt, .st, .keys, .wait] s (s.perform c).2 := by
  cases c with
  | initAll => exact absurd rfl hc
  | stepOnce =>
    rw [perform_stepOnce (StepCase.latched e hfault).step_eq]
    exact (reportFault_frame s e).mono (by simp)
  | loadImage | tickTimers | setKey | getFramebuffer | getSoundTimer =>
    exact (perform_writes s _).mono (by simp [HostCall.writes])

theorem performAll_frame_of_fault {s : State} {e : FatalError} {calls : List HostCall} (hfault : s.fault = some e)
    (hcalls : HostCall.initAll ∉ calls) : OnlyChanges [.mem, .dt, .st, .keys, .wait] s (s.performAll calls) := by
  induction calls generalizing s with
  | nil => exact fun p _ => by cases p <;> simp [Part.Same, State.performAll]
  | cons c rest ih =>
    obtain ⟨hc, hrest⟩ := List.ne_and_not_mem_of_not_mem_cons hcalls
    have hfirst := perform_frame_of_fault hfault hc.symm
    have hfault' : (s.perform c).2.fault = some e := (hfirst .fault (by simp)).trans hfault
    exact (hfirst.trans (ih hfault' hrest)).mono (by simp)

/-- Settles O20: the latch is in the frame of every such call, so that it stands after all of them. -/
theorem faultStaysUntilReset : Obligations.FaultStaysUntilReset := by
  unfold Obligations.FaultStaysUntilReset
  refine ⟨fun s e calls hfault hcalls => ?_, fun s => rfl⟩
  have hframe := performAll_frame_of_fault hfault hcalls
  have hfault' : (s.performAll calls).fault = some e := (hframe .fault (by simp)).trans hfault
  exact ⟨hfault', hframe, latchedFaultChangesNothing _ e hfault'⟩

/-! ### Error codes, the font, the timers -/

/-- Settles O21, by the definition of the codes. -/
theorem errorCodesAreThoseOfTheTable : Obligations.ErrorCodesAreThoseOfTheTable :=
  ⟨rfl, fun _ _ => rfl, fun _ => rfl, fun _ => rfl, fun _ => rfl, fun _ => rfl⟩

/-- Settles O2, by reading the 80 bytes. -/
theorem fontIsTheGlyphTable : Obligations.FontIsTheGlyphTable := by
  unfold Obligations.FontIsTheGlyphTable
  decide

theorem countDown_toNat (b : Byte) : (countDown b).toNat = b.toNat - 1 := by
  unfold countDown
  split <;> bv_omega

/-- Settles O55: both timers count down, and nothing else is written. -/
theorem tickDecrementsToZero : Obligations.TickDecrementsToZero :=
  fun s => ⟨_, rfl, countDown_toNat s.dt, countDown_toNat s.st, tickTimers_frame s⟩

end Sys2Proof.Machine
end

section
/-! PROOFS. The call and the return, each with an equation per end (R170, R172); from them what a return does after a
call. -/

namespace Sys2Proof.Machine

/-! ### The ends of `00EE` and `2nnn` -/

section ends
variable {s : State} (nnn : Word)

/-- The state with `v` pushed, where there is room (R40). -/
def State.pushed (s : State) (v : Word) (h : s.sp.val < Config.stackDepth) : State :=
  { s with stk := s.stk.set s.sp.val v h, sp := ⟨s.sp.val + 1, Nat.succ_lt_succ h⟩ }

theorem push_of_room (v : Word) (h : s.sp.val < Config.stackDepth) : s.push v = some (s.pushed v h) :=
  dif_pos h

theorem exec_call_of_room (h : s.sp.val < Config.stackDepth) :
    exec (.call nnn) s = .next ((s.pushed s.npc h).goto nnn) := by
  rw [exec, execCall, push_of_room _ h]

theorem exec_call_of_full (h : s.sp.val = Config.stackDepth) :
    exec (.call nnn) s = .next (s.fatal (.stackOverflow s.pc)) := by
  rw [exec, execCall, push_eq_none.mpr h]

/-- The state with `SP` at `k` (R40). -/
def State.withSP (s : State) (k : Nat) (h : k ≤ Config.stackDepth) : State := { s with sp := ⟨k, Nat.lt_succ_of_le h⟩ }

theorem exec_ret_of_held {k : Nat} (h : s.sp.val = k + 1) :
    exec .ret s = .next ((s.withSP k (by omega)).goto (s.entry k)) := by
  rcases execRet_cases s with ⟨v, t, hpop, heq⟩ | ⟨hempty, -⟩
  · obtain ⟨hsp, rfl, ht⟩ := pop_eq_some hpop
    have hk : t.sp.val = k := by omega
    subst hk
    exact heq.trans (congrArg (fun u : State => Host.Outcome.next (u.goto (s.entry t.sp.val))) ht)
  · omega

theorem exec_ret_of_empty (h : s.sp.val = 0) : exec .ret s = .next (s.fatal (.stackUnderflow s.pc)) := by
  rw [exec, execRet, pop_eq_none.mpr h]

theorem entry_pushed_same (v : Word) (h : s.sp.val < Config.stackDepth) : (s.pushed v h).entry s.sp.val = v := by
  obtain ⟨-, -, hnew, -⟩ := push_eq_some (push_of_room v h)
  exact hnew

theorem entry_pushed_other (v : Word) (h : s.sp.val < Config.stackDepth) {k : Nat} (hk : k ≠ s.sp.val) :
    (s.pushed v h).entry k = s.entry k := by
  obtain ⟨-, -, -, hold, -⟩ := push_eq_some (push_of_room v h)
  exact hold k hk

end ends

/-! ### The statements -/

/-- Settles O25: with room the call is a push and a jump; the word is the encoder's. -/
theorem callPushesTheReturnAddress : Obligations.CallPushesTheReturnAddress := by
  unfold Obligations.CallPushesTheReturnAddress
  refine fun s nnn hnnn => ⟨?word, fun hroom => ?room, fun hfull => ⟨_, exec_call_of_full _ hfull, fatal_raises s _⟩⟩
  case word => exact standsFor_of_encode (addressFits_ofNat hnnn) (encodeNNN_ofNat_toNat 0x2 hnnn)
  case room =>
    have hframe := (push_frame s (push_of_room s.npc hroom)).trans (goto_frame _ (BitVec.ofNat 16 nnn))
    exact ⟨_, exec_call_of_room _ hroom, Nat.mod_eq_of_lt (by omega), rfl, entry_pushed_same s.npc hroom,
      fun k hk => entry_pushed_other s.npc hroom hk, hframe.mono (by simp), rfl⟩

/-- Settles O26: with an entry held the return moves `SP` and `pc` only, and the entries stay where they are. -/
theorem returnPopsIntoThePc : Obligations.ReturnPopsIntoThePc := by
  unfold Obligations.ReturnPopsIntoThePc
  refine ⟨standsFor_of_encode rfl rfl, fun s => ⟨fun hheld => ?_, fun hempty => ?_⟩⟩
  · obtain ⟨k, hk⟩ := Nat.exists_eq_succ_of_ne_zero hheld.ne'
    have hpred : s.sp.val - 1 = k := by omega
    have hframe := (setStack_frame s s.stk ⟨k, by omega⟩).trans (goto_frame _ (s.entry k))
    rw [hpred]
    exact ⟨_, exec_ret_of_held hk, rfl, rfl, fun _ => rfl, hframe.mono (by simp), rfl,
      fetchFails_goto (s := s.withSP k (by omega))⟩
  · exact ⟨_, exec_ret_of_empty hempty, fatal_raises s _⟩

/-- Settles O27: the entry that the return pops is the one the call pushed, and the call wrote no other. -/
theorem returnUndoesCall : Obligations.ReturnUndoesCall := by
  unfold Obligations.ReturnUndoesCall
  refine fun s nnn hroom => ⟨_, exec_call_of_room nnn hroom, fun u hsp hstk => ?_⟩
  have hentry (k : Nat) : u.entry k = (s.pushed s.npc hroom).entry k := by
    rw [State.entry, hstk]
    rfl
  refine ⟨_, exec_ret_of_held (k := s.sp.val) (by rw [hsp]; rfl), ?_, rfl, fun k hk => ?_⟩
  · exact (hentry s.sp.val).trans (entry_pushed_same s.npc hroom)
  · exact (hentry k).trans (entry_pushed_other s.npc hroom (Nat.ne_of_lt hk))

/-- Settles O24: the sum of a 12-bit address and a byte fits `pc`. -/
theorem jumpWithOffsetAddsV0 : Obligations.JumpWithOffsetAddsV0 := by
  unfold Obligations.JumpWithOffsetAddsV0
  intro s nnn hnnn
  refine ⟨standsFor_of_encode (addressFits_ofNat hnnn) (encodeNNN_ofNat_toNat 0xB hnnn), _, rfl, ?_, goto_frame s _,
    s.goto_out _, fetchFails_goto⟩
  rw [State.goto_pc, BitVec.toNat_add, BitVec.toNat_ofNat, BitVec.toNat_setWidth_of_le (by decide)]
  omega

end Sys2Proof.Machine
end

section
/-! PROOFS. What a step does not read: the recorded outcome, the count of drawn bytes (but for `Cxkk`), the stack entries
at `SP` and above (R40, R49, R151). -/

namespace Sys2Proof.Machine

/-! ### The recorded outcome -/

/-- Every instruction overwrites the recorded outcome, and none reads it. -/
theorem exec_ignores_out (i : Instr) (s : State) (o : StepOutcome) : exec i { s with out := o } = exec i s := by
  cases i with
  | ret =>
    rcases hsp : s.sp.val with _ | k
    · rw [exec_ret_of_empty hsp, exec_ret_of_empty (s := { s with out := o }) hsp]
      rfl
    · rw [exec_ret_of_held hsp, exec_ret_of_held (s := { s with out := o }) hsp]
      rfl
  | call nnn =>
    by_cases hroom : s.sp.val < Config.stackDepth
    · rw [exec_call_of_room nnn hroom, exec_call_of_room (s := { s with out := o }) nnn hroom]
      rfl
    · have hfull : s.sp.val = Config.stackDepth := by omega
      rw [exec_call_of_full nnn hfull, exec_call_of_full (s := { s with out := o }) nnn hfull]
      rfl
  | _ => rfl

/-- Settles O59: whatever a step does, it reads the rest of the state, and overwrites the outcome. -/
theorem recordedOutcomeIsNeverRead : Obligations.RecordedOutcomeIsNeverRead := by
  unfold Obligations.RecordedOutcomeIsNeverRead
  intro s o
  obtain ⟨t, hcase⟩ := exists_stepCase s
  rw [hcase.step_eq]
  cases hcase with
  | latched e hfault => exact (StepCase.latched (s := { s with out := o }) e hfault).step_eq
  | pending x hfault hwait => exact (StepCase.pending (s := { s with out := o }) x hfault hwait).step_eq
  | completed x k hfault hwait => exact (StepCase.completed (s := { s with out := o }) x k hfault hwait).step_eq
  | fetchBeyond hrun hpc => exact (StepCase.fetchBeyond (s := { s with out := o }) hrun hpc).step_eq
  | unknown r hfetch hdecode => exact (StepCase.unknown (s := { s with out := o }) r hfetch hdecode).step_eq
  | ran i _ hruns hexec =>
    exact (StepCase.ran (s := { s with out := o }) i _ hruns ((exec_ignores_out i s o).trans hexec)).step_eq

/-! ### Which instructions write the stack (R40) -/

theorem stack_mem_writes {i : Instr} (h : .stack ∈ i.writes) : i = .ret ∨ ∃ nnn, i = .call nnn := by
  cases i <;> simp [Instr.writes] at h ⊢

/-- Settles O60: every other instruction's frame contains the stack. -/
theorem stackHasTwoWriters : Obligations.StackHasTwoWriters := by
  unfold Obligations.StackHasTwoWriters
  intro i s t h hne
  refine stack_mem_writes (mem_writes_of_changed (p := .stack) h fun hsame => ?_)
  exact hne.elim (· hsame.1) (· hsame.2)

/-! ### Stack entries at `SP` and above, and the count of drawn bytes -/

/-- The state with other stack entries, another count of drawn bytes and another recorded outcome. -/
def State.disturb (s : State) (stk : Vector Word Config.stackDepth) (d : Nat) (o : StepOutcome) : State :=
  { s with stk := stk, draws := d, out := o }

/-- The entries that the state holds are the same in `stk`. -/
def State.HeldIn (s : State) (stk : Vector Word Config.stackDepth) : Prop :=
  ∀ j, j < s.sp.val → ({ s with stk := stk } : State).entry j = s.entry j

theorem State.HeldIn.of_same_stack {s t : State} {stk : Vector Word Config.stackDepth} (h : s.HeldIn stk)
    (hsp : t.sp = s.sp) (hstk : t.stk = s.stk) : t.HeldIn stk := by
  intro j hj
  rw [hsp] at hj
  have hentry : t.entry j = s.entry j := by rw [State.entry, hstk, State.entry]
  exact (h j hj).trans hentry.symm

section disturb
variable {i : Instr} {s t : State} {stk : Vector Word Config.stackDepth} (d : Nat) (o : StepOutcome)

theorem ifInMemory_disturb (len : Nat) {t' : State} (ht : t' = t.disturb stk d t.out) :
    (s.disturb stk d o).ifInMemory len t' = (s.ifInMemory len t).disturb stk d (s.ifInMemory len t).out := by
  have hindex : (s.disturb stk d o).i = s.i := rfl
  rw [ht, State.ifInMemory, State.ifInMemory, hindex]
  cases firstOutside s.i.toNat len with
  | none => rfl
  | some a => rfl

theorem KeyTestEnds.disturb {x : RegIx} {wanted : Bool → Bool} {r r' : Result} (h : KeyTestEnds wanted x s r)
    (h' : KeyTestEnds wanted x (s.disturb stk d o) r') (ht : r = .next t) : r' = .next (t.disturb stk d t.out) := by
  rcases h with ⟨k, hk, rfl⟩ | ⟨hbad, rfl⟩ <;> rcases h' with ⟨k', hk', rfl⟩ | ⟨hbad', rfl⟩ <;> cases ht
  · cases Fin.ext (hk.symm.trans hk')
    rfl
  · exact absurd (hk ▸ hbad' : 0xF < k.val) (by omega)
  · exact absurd (hk' ▸ hbad : 0xF < k'.val) (by omega)
  · rfl

/-- A return reads a held entry. -/
theorem exec_ret_disturb (hheld : s.HeldIn stk) (h : exec .ret s = .next t) :
    exec .ret (s.disturb stk d o) = .next (t.disturb stk d t.out) ∧ t.HeldIn stk ∧ t.stk = s.stk := by
  rcases hsp : s.sp.val with _ | k
  · cases (exec_ret_of_empty hsp).symm.trans h
    exact ⟨exec_ret_of_empty (s := s.disturb stk d o) hsp, hheld, rfl⟩
  · cases (exec_ret_of_held hsp).symm.trans h
    have hentry : (s.disturb stk d o).entry k = s.entry k := hheld k (by omega)
    refine ⟨?_, fun j hj => hheld j (by rw [hsp]; exact Nat.lt_succ_of_lt hj), rfl⟩
    rw [exec_ret_of_held (s := s.disturb stk d o) hsp, hentry]
    rfl

/-- A call writes the entry at `SP`, and reads none. -/
theorem exec_call_disturb {nnn : Word} (hheld : s.HeldIn stk) (h : exec (.call nnn) s = .next t) :
    ∃ stk', exec (.call nnn) (s.disturb stk d o) = .next (t.disturb stk' d t.out) ∧ t.HeldIn stk' ∧
      (stk = s.stk → stk' = t.stk) := by
  by_cases hroom : s.sp.val < Config.stackDepth
  · cases (exec_call_of_room nnn hroom).symm.trans h
    refine ⟨_, exec_call_of_room (s := s.disturb stk d o) nnn hroom, fun j hj => ?_, fun hstk => by rw [hstk]; rfl⟩
    by_cases hjsp : j = s.sp.val
    · subst hjsp
      exact (entry_pushed_same (s := s.disturb stk d o) s.npc hroom).trans (entry_pushed_same s.npc hroom).symm
    · calc ((s.disturb stk d o).pushed s.npc hroom).entry j
        _ = (s.disturb stk d o).entry j := entry_pushed_other (s := s.disturb stk d o) s.npc hroom hjsp
        _ = s.entry j := hheld j (Nat.lt_of_le_of_ne (Nat.le_of_lt_succ hj) hjsp)
        _ = (s.pushed s.npc hroom).entry j := (entry_pushed_other s.npc hroom hjsp).symm
  · have hfull : s.sp.val = Config.stackDepth := by omega
    cases (exec_call_of_full nnn hfull).symm.trans h
    exact ⟨stk, exec_call_of_full (s := s.disturb stk d o) nnn hfull, hheld, id⟩

/-- An instruction that neither uses the stack nor draws a byte goes to the same state from a disturbed one, disturbed
alike. -/
theorem exec_disturb_of_no_stack (h : exec i s = .next t) (hret : i ≠ .ret) (hcall : ∀ nnn, i ≠ .call nnn)
    (hrnd : ∀ x kk, i ≠ .rnd x kk) : exec i (s.disturb stk d o) = .next (t.disturb stk d t.out) := by
  cases i with
  | ret => exact absurd rfl hret
  | call nnn => exact absurd rfl (hcall nnn)
  | rnd x kk => exact absurd rfl (hrnd x kk)
  | skp x => exact (execSkp_ends x s).disturb d o (execSkp_ends x _) h
  | sknp x => exact (execSknp_ends x s).disturb d o (execSknp_ends x _) h
  | drw | ldBVx | storeRegs | loadRegs =>
    cases h
    exact congrArg Host.Outcome.next (ifInMemory_disturb d o _ rfl)
  | _ =>
    cases h
    rfl

/-- An instruction that draws no byte reads neither the count of drawn bytes nor an entry that is not held. -/
theorem exec_disturb (hheld : s.HeldIn stk) (h : exec i s = .next t) (hrnd : ∀ x kk, i ≠ .rnd x kk) :
    ∃ stk', exec i (s.disturb stk d o) = .next (t.disturb stk' d t.out) ∧ t.HeldIn stk' ∧
      (stk = s.stk → stk' = t.stk) := by
  by_cases huses : i = .ret ∨ ∃ nnn, i = .call nnn
  · rcases huses with rfl | ⟨nnn, rfl⟩
    · obtain ⟨hexec, hheld', hstk⟩ := exec_ret_disturb d o hheld h
      exact ⟨stk, hexec, hheld', fun heq => heq.trans hstk.symm⟩
    · exact exec_call_disturb d o hheld h
  · obtain ⟨hsp, hstk⟩ := of_exists_next (exec_writes i s) h .stack (mt stack_mem_writes huses)
    obtain ⟨hret, hcall⟩ := not_or.mp huses
    exact ⟨stk, exec_disturb_of_no_stack d o h hret (not_exists.mp hcall) hrnd, hheld.of_same_stack hsp hstk,
      fun heq => heq.trans hstk.symm⟩

/-- So it is with a step that draws no byte. -/
theorem step_disturb (hheld : s.HeldIn stk) (hstep : step s = .next t) (hrnd : ∀ x kk, ¬ s.Runs (.rnd x kk)) :
    ∃ stk', step (s.disturb stk d o) = .next (t.disturb stk' d t.out) ∧ t.HeldIn stk' ∧
      (stk = s.stk → stk' = t.stk) := by
  cases step_cases hstep with
  | latched e hfault => exact ⟨stk, (StepCase.latched (s := s.disturb stk d o) e hfault).step_eq, hheld, id⟩
  | pending x hfault hwait =>
    exact ⟨stk, (StepCase.pending (s := s.disturb stk d o) x hfault hwait).step_eq, hheld, id⟩
  | completed x k hfault hwait =>
    exact ⟨stk, (StepCase.completed (s := s.disturb stk d o) x k hfault hwait).step_eq, hheld, id⟩
  | fetchBeyond hrun hpc => exact ⟨stk, (StepCase.fetchBeyond (s := s.disturb stk d o) hrun hpc).step_eq, hheld, id⟩
  | unknown r hfetch hdecode =>
    exact ⟨stk, (StepCase.unknown (s := s.disturb stk d o) r hfetch hdecode).step_eq, hheld, id⟩
  | ran i _ hruns hexec =>
    have hno (x : RegIx) (kk : Byte) : i ≠ .rnd x kk := by
      rintro rfl
      exact hrnd x kk hruns
    obtain ⟨stk', hexec', hrest⟩ := exec_disturb d o hheld hexec hno
    exact ⟨stk', (StepCase.ran (s := s.disturb stk d o) i _ hruns hexec').step_eq, hrest⟩

end disturb

/-- Settles O36: the stack is not disturbed before the step, and so not after it. -/
theorem onlyRndReadsTheRandomByte : Obligations.OnlyRndReadsTheRandomByte := by
  unfold Obligations.OnlyRndReadsTheRandomByte
  intro s t d hstep hrnd
  obtain ⟨stk', hstep', -, hstk⟩ := step_disturb (stk := s.stk) d s.out (fun _ _ => rfl) hstep hrnd
  cases hstk rfl
  exact hstep'

theorem draws_mem_writes {i : Instr} (h : .draws ∈ i.writes) : ∃ x kk, i = .rnd x kk := by
  cases i <;> simp [Instr.writes] at h ⊢

/-- Only `Cxkk` counts a drawn byte. -/
theorem step_draws {s t : State} (hstep : step s = .next t) (hrnd : ∀ x kk, ¬ s.Runs (.rnd x kk)) :
    t.draws = s.draws := by
  cases step_cases hstep with
  | latched | pending | completed | fetchBeyond | unknown => rfl
  | ran i _ hruns hexec =>
    refine of_exists_next (exec_writes i s) hexec .draws fun hmem => ?_
    obtain ⟨x, kk, rfl⟩ := draws_mem_writes hmem
    exact hrnd x kk hruns

/-- `Cxkk` uses no stack entry. -/
theorem step_rnd_disturb {s t : State} {x : RegIx} {kk : Byte} (stk : Vector Word Config.stackDepth)
    (hruns : s.Runs (.rnd x kk)) (hstep : step s = .next t) :
    step { s with stk := stk } = .next { t with stk := stk } ∧ t.sp = s.sp ∧ t.stk = s.stk := by
  cases (stepRunsTheDecodedInstruction s _ hruns).symm.trans hstep
  exact ⟨stepRunsTheDecodedInstruction { s with stk := stk } (.rnd x kk) hruns, rfl, rfl⟩

/-- Settles O58: a step that draws no byte reads held entries only, and one that draws a byte reads none. -/
theorem entriesAboveSpAreNeverRead : Obligations.EntriesAboveSpAreNeverRead := by
  unfold Obligations.EntriesAboveSpAreNeverRead
  rintro s s' t ⟨hs', hheld⟩ hstep
  obtain ⟨stk, rfl⟩ : ∃ stk, s' = { s with stk := stk } := ⟨_, hs'⟩
  by_cases hrnd : ∃ x kk, s.Runs (.rnd x kk)
  · obtain ⟨x, kk, hruns⟩ := hrnd
    obtain ⟨hstep', hsp, hstk⟩ := step_rnd_disturb stk hruns hstep
    exact ⟨_, hstep', rfl, State.HeldIn.of_same_stack hheld hsp hstk⟩
  · have hno : ∀ x kk, ¬ s.Runs (.rnd x kk) := fun x kk hruns => hrnd ⟨x, kk, hruns⟩
    obtain ⟨stk', hstep', hheld', -⟩ := step_disturb s.draws s.out hheld hstep hno
    refine ⟨_, hstep', ?_, hheld'⟩
    rw [State.disturb, ← step_draws hstep hno]

end Sys2Proof.Machine
end

section
/-! PROOFS. The register and ALU instructions: the shape of a result with a flag, the values written, the words they are
written as (R200 to R213). -/

namespace Sys2Proof.Machine

/-! ### The words of the formats `XY` and `X` (R102, R110) -/

section words
variable {i : Instr} {op : BitVec 4} {x y : RegIx} {base : Nat}

/-- An instruction of format `XY` with a fixed low nibble. -/
theorem standsFor_xy {n : BitVec 4} (hwf : i.wf = true) (hword : encode i = encodeXYN op x y n)
    (hbase : base = op.toNat * 4096 + n.toNat) : StandsFor (base + 256 * x.val + 16 * y.val) i := by
  apply standsFor_of_encode hwf
  rw [hword, encodeXYN_toNat]
  omega

/-- An instruction of format `X` with a fixed low byte. -/
theorem standsFor_x {kk : Byte} (hwf : i.wf = true) (hword : encode i = encodeXKK op x kk)
    (hbase : base = op.toNat * 4096 + kk.toNat) : StandsFor (base + 256 * x.val) i := by
  apply standsFor_of_encode hwf
  rw [hword, encodeXKK_toNat]
  omega

/-- An instruction of format `XKK`. -/
theorem standsFor_xkk {kk : Byte} (hwf : i.wf = true) (hword : encode i = encodeXKK op x kk)
    (hbase : base = op.toNat * 4096) : StandsFor (base + 256 * x.val + kk.toNat) i := by
  apply standsFor_of_encode hwf
  rw [hword, encodeXKK_toNat]
  omega

end words

/-! ### A result and a flag, then `pc` moved on (R206) -/

theorem flagByte_toNat (f : Bool) : (flagByte f).toNat = if f then 1 else 0 := by
  cases f <;> rfl

/-- An instruction that ends by writing a result and then the flag, and moving on, has the shape of R206. -/
theorem setsRegisterAndFlag_of_setResultFlag {i : Instr} {x : RegIx} {p : Byte × Bool} {r f : Nat} {s : State}
    (hexec : exec i s = .next (s.setResultFlag x p).advance) (hr : p.1.toNat = r) (hf : (if p.2 then 1 else 0) = f) :
    SetsRegisterAndFlag i x r f s := by
  refine ⟨_, hexec, fun hx => ?_, ?_, fun q hq => ?_, rfl, (setResultFlag_frame s x p).trans (advance_frame _), rfl⟩
  · rw [State.advance_getV, getV_setResultFlag, if_neg hx, if_pos rfl, hr]
  · rw [State.advance_getV, getV_setResultFlag, if_pos rfl, flagByte_toNat, hf]
  · obtain ⟨hqx, hqf⟩ : q ≠ x ∧ q ≠ VF := by simpa using hq
    rw [State.advance_getV, getV_setResultFlag, if_neg hqf, if_neg hqx]

/-! ### The values (R207 to R211) -/

section values
variable (a b : Byte)

theorem getLsbD_eq_true (k : Nat) : a.getLsbD k = true ↔ a.toNat / 2 ^ k % 2 = 1 := by
  rw [BitVec.getLsbD, Nat.testBit_eq_decide_div_mod_eq, decide_eq_true_eq]

theorem addCarry_result : (addCarry a b).1.toNat = (a.toNat + b.toNat) % 256 := BitVec.toNat_ofNat _ _

theorem subNoBorrow_result : (subNoBorrow a b).1.toNat = (256 + a.toNat - b.toNat) % 256 := by
  rw [subNoBorrow, BitVec.toNat_ofInt]
  omega

theorem shiftRightOut_result : (shiftRightOut a).1.toNat = a.toNat / 2 := by
  rw [shiftRightOut, BitVec.toNat_ushiftRight, Nat.shiftRight_eq_div_pow]

theorem shiftRightOut_flag : (if (shiftRightOut a).2 then 1 else 0) = a.toNat % 2 := by
  simp only [shiftRightOut, getLsbD_eq_true]
  split <;> omega

theorem shiftLeftOut_result : (shiftLeftOut a).1.toNat = 2 * a.toNat % 256 := by
  rw [shiftLeftOut, BitVec.toNat_shiftLeft, Nat.shiftLeft_eq, Nat.mul_comm]

theorem shiftLeftOut_flag : (if (shiftLeftOut a).2 then 1 else 0) = a.toNat / 128 := by
  simp only [shiftLeftOut, getLsbD_eq_true]
  split <;> omega

end values

/-! ### The statements -/

/-- Settles O31: the copy and the logic operations are register writes, bit by bit. -/
theorem copyAndLogicSetNoFlag : Obligations.CopyAndLogicSetNoFlag := by
  unfold Obligations.CopyAndLogicSetNoFlag
  intro s x y
  have hwrite (b : Byte) : RegsSameBut [x] s (s.setV x b).advance ∧ (s.setV x b).advance.pc = s.pc + 2 ∧
      OnlyChanges [.regs, .pc] s (s.setV x b).advance ∧ (s.setV x b).advance.out = .quiet :=
    ⟨regsSameBut_setV s x b, rfl, (setV_frame s x b).trans (advance_frame _), rfl⟩
  refine ⟨⟨standsFor_xy rfl rfl rfl, setsRegister_of_setV rfl rfl⟩,
    ⟨standsFor_xy rfl rfl rfl, _, rfl, fun k => ?_, hwrite _⟩,
    ⟨standsFor_xy rfl rfl rfl, _, rfl, fun k => ?_, hwrite _⟩,
    ⟨standsFor_xy rfl rfl rfl, _, rfl, fun k => ?_, hwrite _⟩⟩
  all_goals rw [State.advance_getV, getV_setV_same]
  · exact BitVec.getLsbD_or
  · exact BitVec.getLsbD_and
  · exact BitVec.getLsbD_xor

/-- Settles O32: the sum and the carry. -/
theorem addSetsSumAndCarry : Obligations.AddSetsSumAndCarry :=
  fun _ _ _ =>
    ⟨standsFor_xy rfl rfl rfl,
      setsRegisterAndFlag_of_setResultFlag rfl (addCarry_result _ _) (by simp only [addCarry, decide_eq_true_eq])⟩

/-- Settles O33: the difference, with the operands in either order, and the no-borrow flag. -/
theorem subtractionsSetDifferenceAndNoBorrow : Obligations.SubtractionsSetDifferenceAndNoBorrow := by
  unfold Obligations.SubtractionsSetDifferenceAndNoBorrow
  intro s x y
  have hflag (a b : Byte) : (if (subNoBorrow a b).2 then 1 else 0) = if a.toNat ≥ b.toNat then 1 else 0 := by
    simp only [subNoBorrow, decide_eq_true_eq]
  exact
    ⟨⟨standsFor_xy rfl rfl rfl,
        setsRegisterAndFlag_of_setResultFlag rfl (subNoBorrow_result _ _) (hflag _ _)⟩,
      standsFor_xy rfl rfl rfl,
      setsRegisterAndFlag_of_setResultFlag rfl (subNoBorrow_result _ _) (hflag _ _)⟩

/-- Settles O34: both shifts read `V[x]` only. -/
theorem shiftsMoveOneBitIntoVF : Obligations.ShiftsMoveOneBitIntoVF :=
  fun _ _ _ =>
    ⟨⟨standsFor_xy rfl rfl rfl,
        setsRegisterAndFlag_of_setResultFlag rfl (shiftRightOut_result _) (shiftRightOut_flag _)⟩,
      standsFor_xy rfl rfl rfl,
      setsRegisterAndFlag_of_setResultFlag rfl (shiftLeftOut_result _) (shiftLeftOut_flag _)⟩

theorem rndWith_getV (rand : Byte) (x r : RegIx) (kk : Byte) (s : State) :
    (rndWith rand x kk s).getV r = if r = x then rand &&& kk else s.getV r :=
  getV_setV { s with draws := s.draws + 1 } x r _

/-- Settles O35: the meaning is that at the free value, and at every value it is a masked register write that counts one
draw. -/
theorem randomByteIsMasked : Obligations.RandomByteIsMasked := by
  unfold Obligations.RandomByteIsMasked
  refine fun s x kk => ⟨standsFor_xkk rfl rfl rfl, rfl, fun rand =>
    ⟨fun k => ?_, fun r hr => ?_, rfl, rfl, rndWith_frame s rand x kk, rfl⟩⟩
  · rw [rndWith_getV, if_pos rfl, BitVec.getLsbD_and]
  · rw [rndWith_getV, if_neg (List.ne_of_not_mem_cons hr)]

end Sys2Proof.Machine
end

section
/-! PROOFS. The instructions that access memory at `I`: the bounds check and its two ends, the block store and load, and
what the rest of memory keeps (R71 to R75, R241 to R248). -/

namespace Sys2Proof.Machine

/-! ### The bounds check (R241) -/

section bounds
variable {s t : State} {len : Nat}

theorem ifInMemory_inside (h : ∀ a, s.i.toNat ≤ a → a < s.i.toNat + len → a < 4096) : s.ifInMemory len t = t := by
  rw [State.ifInMemory, firstOutside_eq_none.mpr h]

theorem ifInMemory_outside {a : Nat} (h : firstOutside s.i.toNat len = some a) :
    s.ifInMemory len t = s.fatal (.outOfBounds .data a) := by
  rw [State.ifInMemory, h]

/-- From an `I` of 12 bits, an access that leaves memory leaves it at 0x1000. -/
theorem ifInMemory_beyond (hindex : s.i.toNat ≤ 0xFFF) (h : 4096 < s.i.toNat + len) :
    s.ifInMemory len t = s.fatal (.outOfBounds .data 0x1000) :=
  ifInMemory_outside (firstOutside_eq_some.mpr ⟨by omega, fun b _ _ hb => hb⟩)

end bounds

/-! ### Registers loaded from `I`, then `pc` moved on (R247) -/

/-- The state after the registers up to `x` have been loaded from `I`. -/
def State.loaded (s : State) (x : RegIx) : State :=
  (s.setRegsUpTo x fun j => readByte s.mem (s.i.toNat + j)).advance

theorem exec_loadRegs (x : RegIx) (s : State) :
    exec (.loadRegs x) s = .next (s.ifInMemory (x.val + 1) (s.loaded x)) := rfl

section loaded
variable (s : State) (x : RegIx)

theorem loaded_getV (r : RegIx) :
    (s.loaded x).getV r = if r ≤ x then s.byteAt (s.i.toNat + r.val) else s.getV r := by
  rw [State.loaded, State.advance_getV, getV_setRegsUpTo, State.byteAt]

theorem loaded_fault : (s.loaded x).fault = s.fault := by
  rw [State.loaded, State.advance_fault, State.setRegsUpTo_fault]

theorem loaded_pc : (s.loaded x).pc = s.pc + 2 := by
  rw [State.loaded, State.advance_pc, State.setRegsUpTo_pc]

theorem loaded_frame : OnlyChanges [.regs, .pc] s (s.loaded x) :=
  (setRegsUpTo_frame s x _).trans (advance_frame _)

end loaded

/-! ### Which instructions check (R241) -/

/-- The instruction accesses the `len` addresses from `I` (R241). -/
def Accesses (i : Instr) (len : Nat) : Prop :=
  (∃ x y, i = .drw x y len) ∨ (∃ x, i = .ldBVx x ∧ len = 3) ∨
    ∃ x, (i = .storeRegs x ∨ i = .loadRegs x) ∧ len = x.val + 1

/-- Each of the four instructions that access memory checks first, and moves on by 2. -/
theorem exec_of_accesses {i : Instr} {len : Nat} (h : Accesses i len) (s : State) :
    ∃ t, exec i s = .next (s.ifInMemory len t) ∧ t.fault = s.fault ∧ t.pc = s.pc + 2 := by
  rcases h with ⟨x, y, rfl⟩ | ⟨x, rfl, rfl⟩ | ⟨x, rfl | rfl, rfl⟩
  · exact ⟨drawn x y len s, rfl, rfl, rfl⟩
  · exact ⟨_, rfl, rfl, rfl⟩
  · exact ⟨_, rfl, rfl, rfl⟩
  · exact ⟨s.loaded x, rfl, loaded_fault s x, loaded_pc s x⟩

/-- Settles O22: the check names the lowest address outside, or lets the access pass. -/
theorem dataAccessBeyondMemoryIsFatal : Obligations.DataAccessBeyondMemoryIsFatal := by
  unfold Obligations.DataAccessBeyondMemoryIsFatal
  intro s i len haccess
  obtain ⟨t, hexec, hfault, hpc⟩ := exec_of_accesses haccess s
  refine ⟨fun a hlow hhigh hout hleast => ?_, fun hall => ?_⟩
  · have hfirst : firstOutside s.i.toNat len = some a := firstOutside_eq_some.mpr ⟨⟨hlow, hhigh, hout⟩, hleast⟩
    rw [ifInMemory_outside hfirst] at hexec
    exact ⟨⟨_, hexec, fatal_raises s _⟩, fun hindex => firstOutside_eq_memSize hindex hfirst⟩
  · rw [ifInMemory_inside hall] at hexec
    exact ⟨t, hexec, hfault, hpc⟩

/-! ### A block of bytes stored at `I`, then `pc` moved on (R245, R246) -/

/-- The state after a block of bytes has been stored at `I`. -/
def State.stored (s : State) (bytes : List Byte) : State := (s.setMem (writeBytes s.mem s.i.toNat bytes)).advance

section stored
variable (s : State) (bytes : List Byte)

theorem stored_frame : OnlyChanges [.mem, .pc] s (s.stored bytes) := (setMem_frame s _).trans (advance_frame _)

theorem stored_outside : MemSameOutside s.i.toNat bytes.length s (s.stored bytes) :=
  fun a => readByte_writeBytes_outside bytes s.mem s.i.toNat a

theorem stored_inside (hfits : s.i.toNat + bytes.length ≤ 4096) (k : Nat) (hk : k < bytes.length) :
    (s.stored bytes).byteAt (s.i.toNat + k) = bytes[k] :=
  readByte_writeBytes_inside bytes s.mem s.i.toNat k hk hfits

/-- A store changes bytes of memory in its block only. -/
theorem stored_changed {a : Nat} (h : (s.stored bytes).byteAt a ≠ s.byteAt a) :
    a < 4096 ∧ s.i.toNat ≤ a ∧ a < s.i.toNat + bytes.length := by
  have hin : s.i.toNat ≤ a ∧ a < s.i.toNat + bytes.length := by
    by_contra hout
    exact h (stored_outside s bytes a hout)
  refine ⟨?_, hin⟩
  by_contra hbeyond
  exact h (readByte_writeBytes_beyond bytes s.mem s.i.toNat a (Nat.not_lt.mp hbeyond))

/-- Whether or not the check lets a store pass, it changes bytes of memory in its block only. -/
theorem ifInMemory_stored_changed {a len : Nat} (h : (s.ifInMemory len (s.stored bytes)).byteAt a ≠ s.byteAt a) :
    a < 4096 ∧ s.i.toNat ≤ a ∧ a < s.i.toNat + bytes.length := by
  rcases ifInMemory_cases s len (s.stored bytes) with ⟨-, heq⟩ | ⟨b, -, heq⟩ <;> rw [heq] at h
  · exact stored_changed s bytes h
  · exact absurd rfl h

end stored

theorem exec_ldBVx (x : RegIx) (s : State) :
    exec (.ldBVx x) s = .next (s.ifInMemory 3 (s.stored (decimalDigits (s.getV x)))) := rfl

theorem exec_storeRegs (x : RegIx) (s : State) :
    exec (.storeRegs x) s = .next (s.ifInMemory (x.val + 1) (s.stored (s.regsUpTo x))) := rfl

/-- With the block in memory, `Fx55` stores it (R246). -/
theorem exec_storeRegs_inside {x : RegIx} {s : State} (h : s.i.toNat + x.val < 4096) :
    exec (.storeRegs x) s = .next (s.stored (s.regsUpTo x)) := by
  rw [exec_storeRegs, ifInMemory_inside (by omega)]

/-- The byte stored from `V[j]` (R246). -/
theorem stored_regsUpTo {x j : RegIx} {s : State} (h : s.i.toNat + x.val < 4096) (hj : j ≤ x) :
    (s.stored (s.regsUpTo x)).byteAt (s.i.toNat + j.val) = s.getV j := by
  have hlength := regsUpTo_length s x
  have hjx : j.val ≤ x.val := hj
  rw [stored_inside s _ (by omega) j.val (by omega), regsUpTo_getElem]

/-- Settles O44: only the two stores can write memory, and each its own block. -/
theorem memoryHasTwoWriters : Obligations.MemoryHasTwoWriters := by
  unfold Obligations.MemoryHasTwoWriters
  intro i s t a h hne
  have hmem : .mem ∈ i.writes := mem_writes_of_changed (p := .mem) h fun hsame => hne (hsame a)
  cases i with
  | ldBVx x =>
    cases h
    obtain ⟨hlt, hlow, hhigh⟩ := ifInMemory_stored_changed s _ hne
    exact ⟨hlt, hlow, x, .inl ⟨rfl, hhigh⟩⟩
  | storeRegs x =>
    cases h
    obtain ⟨hlt, hlow, hhigh⟩ := ifInMemory_stored_changed s _ hne
    rw [regsUpTo_length] at hhigh
    exact ⟨hlt, hlow, x, .inr ⟨rfl, Nat.le_of_lt_succ hhigh⟩⟩
  | _ => simp [Instr.writes] at hmem

/-- Settles O40: the three digits of a byte fit a byte each, and stand at `I` in their order. -/
theorem decimalDigitsAreStored : Obligations.DecimalDigitsAreStored := by
  unfold Obligations.DecimalDigitsAreStored
  refine fun s x => ⟨standsFor_x rfl rfl rfl, fun hin => ?inside, fun hlow hhigh => ?outside⟩
  case inside =>
    have hdigit (k : Nat) (hk : k < 3) :=
      stored_inside s (decimalDigits (s.getV x)) (show s.i.toNat + 3 ≤ 4096 by omega) k hk
    have hbyte := (s.getV x).isLt
    refine ⟨s.stored (decimalDigits (s.getV x)), ?_, ?_, ?_, ?_, stored_outside s (decimalDigits (s.getV x)),
      rfl, stored_frame s _, rfl⟩
    · rw [exec_ldBVx, ifInMemory_inside (by omega)]
    · exact (congrArg BitVec.toNat (hdigit 0 (by decide))).trans (Nat.mod_eq_of_lt (by omega))
    · exact (congrArg BitVec.toNat (hdigit 1 (by decide))).trans (Nat.mod_eq_of_lt (by omega))
    · exact (congrArg BitVec.toNat (hdigit 2 (by decide))).trans (Nat.mod_eq_of_lt (by omega))
  case outside =>
    exact ⟨_, by rw [exec_ldBVx, ifInMemory_beyond hhigh (by omega)], fatal_raises s _⟩

/-- Settles O41: the block stored is as long as the registers are many. -/
theorem registersAreStored : Obligations.RegistersAreStored := by
  unfold Obligations.RegistersAreStored
  refine fun s x => ⟨standsFor_x rfl rfl rfl, fun hin => ?inside, fun hbeyond hindex => ?outside⟩
  case inside =>
    have houtside := stored_outside s (s.regsUpTo x)
    rw [regsUpTo_length] at houtside
    exact ⟨_, exec_storeRegs_inside hin, fun j hj => stored_regsUpTo hin hj, houtside, rfl, stored_frame s _, rfl⟩
  case outside =>
    exact ⟨_, by rw [exec_storeRegs, ifInMemory_beyond hindex (by omega)], fatal_raises s _⟩

/-- Settles O45: the fetch reads the two bytes that the store wrote. -/
theorem fetchSeesTheStore : Obligations.FetchSeesTheStore := by
  unfold Obligations.FetchSeesTheStore
  refine fun s x j k hin hjk hkx => ⟨_, exec_storeRegs_inside hin, fun u hmem hpc => ?_⟩
  have hjx : j ≤ x := Fin.le_def.mpr (by have := Fin.le_def.mp hkx; omega)
  have hbyte (a : Nat) : u.byteAt a = (s.stored (s.regsUpTo x)).byteAt a := by
    rw [State.byteAt, hmem, State.byteAt]
  rw [fetchedWordIsBigEndian u, hpc, hbyte, hbyte, stored_regsUpTo hin hjx, Nat.add_assoc, ← hjk,
    stored_regsUpTo hin hkx]

/-- Settles O42: the load reads each byte of its block into a register, and no register above `x`. -/
theorem registersAreLoaded : Obligations.RegistersAreLoaded := by
  unfold Obligations.RegistersAreLoaded
  refine fun s x => ⟨standsFor_x rfl rfl rfl, fun hin => ?inside, fun hbeyond hindex => ?outside⟩
  case inside =>
    refine ⟨s.loaded x, ?_, fun j hj => ?_, fun j hj => ?_, loaded_pc s x, loaded_frame s x, rfl⟩
    · rw [exec_loadRegs, ifInMemory_inside (by omega)]
    · rw [loaded_getV, if_pos hj]
    · rw [loaded_getV, if_neg (not_le.mpr hj)]
  case outside =>
    exact ⟨_, by rw [exec_loadRegs, ifInMemory_beyond hindex (by omega)], fatal_raises s _⟩

/-- Settles O39: five times a byte fits the index register. -/
theorem glyphAddressIsFiveTimesTheDigit : Obligations.GlyphAddressIsFiveTimesTheDigit := by
  unfold Obligations.GlyphAddressIsFiveTimesTheDigit
  refine fun s x => ⟨standsFor_x rfl rfl rfl, setsIndex_of_setI rfl ?_⟩
  have hbyte := (s.getV x).isLt
  exact Nat.mod_eq_of_lt (by omega)

/-! ### Which instructions write `VF` (R34) -/

theorem eq_VF_of_setV {s : State} {x : RegIx} {b : Byte} (h : (s.setV x b).advance.getV VF ≠ s.getV VF) : x = VF := by
  by_contra hx
  exact h (getV_setV_other s b (Ne.symm hx))

/-- `FF65` alone of the block loads reaches `VF` (R247). -/
theorem eq_VF_of_loadRegs {s t : State} {x : RegIx} (h : exec (.loadRegs x) s = .next t)
    (hne : t.getV VF ≠ s.getV VF) : x = VF := by
  cases (exec_loadRegs x s).symm.trans h
  rcases ifInMemory_cases s (x.val + 1) (s.loaded x) with ⟨-, heq⟩ | ⟨a, -, heq⟩ <;>
    rw [heq] at hne
  · rw [loaded_getV] at hne
    by_contra hx
    have hlast : ¬ VF ≤ x := fun hle => hx (Fin.last_le_iff.mp hle)
    exact hne (if_neg hlast)
  · exact absurd rfl hne

/-- Settles O37: an instruction that changes `VF` can write registers; of those, the ones that write no flag write the
register they name. -/
theorem vfChangesOnlyAsFlagOrDestination : Obligations.VfChangesOnlyAsFlagOrDestination := by
  unfold Obligations.VfChangesOnlyAsFlagOrDestination
  intro i s t h hne
  have hregs : .regs ∈ i.writes := mem_writes_of_changed (p := .regs) h fun hsame => hne (hsame VF)
  cases i with
  | addReg | subReg | shr | subnReg | shl | drw => simp
  | ldImm x | addImm x | ldReg x | orReg x | andReg x | xorReg x | ldVxDT x =>
    cases h
    cases eq_VF_of_setV hne
    simp
  | rnd x kk =>
    cases h
    cases eq_VF_of_setV (s := { s with draws := s.draws + 1 }) hne
    simp
  | loadRegs x =>
    cases eq_VF_of_loadRegs h hne
    simp
  | _ => simp [Instr.writes] at hregs

end Sys2Proof.Machine
end

section
/-! PROOFS. Drawing a sprite: no pixel is visited twice, so that a draw flips the pixels that its set bits cover, and a
second draw flips them back (R271 to R273, conflict C7). -/

namespace Sys2Proof.Machine

/-! ### No pixel twice (R271) -/

/-- Two bits of one sprite land on one pixel only when they are the same bit. -/
theorem pixelIndex_inj {cx cy : Byte} {r c r' c' : Nat} (hr : r < 16) (hr' : r' < 16) (hc : c < 8) (hc' : c' < 8)
    (h : pixelIndex cx cy r c = pixelIndex cx cy r' c') : r = r' ∧ c = c' := by
  simp only [pixelIndex, Config.fbHeight, Config.fbWidth] at h
  omega

theorem rowPixels_nodup (cx cy : Byte) {r : Nat} (hr : r < 16) (b : Byte) : (rowPixels cx cy r b).Nodup := by
  refine List.Nodup.map_on (fun c hc c' hc' h => ?_) (List.nodup_range.filter _)
  have hlt (k : Nat) (hk : k ∈ (List.range 8).filter (spriteBit b)) : k < 8 :=
    List.mem_range.mp (List.mem_of_mem_filter hk)
  exact (pixelIndex_inj hr hr (hlt c hc) (hlt c' hc') h).2

theorem spritePixels_nodup (m : Memory) (base : Nat) (cx cy : Byte) {n : Nat} (hn : n < 16) :
    (spritePixels m base cx cy n).Nodup := by
  have hrow {r : Nat} (hr : r ∈ List.range n) : r < 16 := (List.mem_range.mp hr).trans hn
  refine List.nodup_flatMap.mpr ⟨fun r hr => rowPixels_nodup cx cy (hrow hr) _, ?_⟩
  refine List.nodup_range.pairwise_of_forall_ne fun r hr r' hr' hne => ?_
  rw [Function.onFun, List.disjoint_left]
  intro i hi hi'
  simp only [rowPixels, List.mem_map, List.mem_filter, List.mem_range] at hi hi'
  obtain ⟨c, ⟨hc, -⟩, rfl⟩ := hi
  obtain ⟨c', ⟨hc', -⟩, heq⟩ := hi'
  exact hne (pixelIndex_inj (hrow hr) (hrow hr') hc hc' heq.symm).1

/-! ### The sprite's pixels are the covered ones -/

/-- The pixels that `Dxyn` visits. -/
def State.visited (s : State) (x y : RegIx) (n : Nat) : List Nat :=
  spritePixels s.mem s.i.toNat (s.getV x) (s.getV y) n

section drawing
variable {s t : State} {x y : RegIx} {n : Nat}

theorem spriteBit_eq_true (b : Byte) (c : Nat) : spriteBit b c = true ↔ b.toNat / 2 ^ (7 - c) % 2 = 1 :=
  getLsbD_eq_true b (7 - c)

theorem visited_lt {k : Nat} (h : k ∈ s.visited x y n) : k < 2048 := by
  obtain ⟨r, c, -, -, -, rfl⟩ := mem_spritePixels.mp h
  exact pixelIndex_lt _ _ r c

theorem mem_visited {px py : Nat} (hx : px < 64) : py * 64 + px ∈ s.visited x y n ↔ Covers s x y n px py := by
  rw [State.visited, mem_spritePixels]
  refine exists_congr fun r => exists_congr fun c => ?_
  rw [spriteBit_eq_true, eq_comm (a := py * 64 + px), pixelIndex_eq hx]
  rfl

/-- The framebuffer and the collision flag of the draw. -/
def State.drawing (s : State) (x y : RegIx) (n : Nat) : Drawing := (s.visited x y n).foldl drawPixel (s.fb, false)

theorem drawn_eq (x y : RegIx) (n : Nat) (s : State) :
    drawn x y n s =
      ((s.setFB (s.drawing x y n).1).setV VF (flagByte (s.drawing x y n).2)).advance.signalRedraw := by
  rw [drawn, drawSprite_eq]
  rfl

theorem drawn_getV (x y r : RegIx) (n : Nat) (s : State) :
    (drawn x y n s).getV r = if r = VF then flagByte (s.drawing x y n).2 else s.getV r := by
  rw [drawn_eq]
  exact getV_setV (s.setFB _) VF r _

/-- A draw flips the covered pixels and no other. -/
theorem drawn_pixel (hn : n < 16) {px py : Nat} (hx : px < 64) (hy : py < 32) :
    (drawn x y n s).pixel px py ≠ s.pixel px py ↔ Covers s x y n px py := by
  have hflip := (foldl_drawPixel _ (s.fb, false) (spritePixels_nodup s.mem s.i.toNat (s.getV x) (s.getV y) hn)
    fun _ => visited_lt).1 (py * 64 + px) (by omega)
  have hpixel : (drawn x y n s).pixel px py = (s.pixel px py ^^ decide (py * 64 + px ∈ s.visited x y n)) := by
    rw [drawn_eq]
    exact hflip
  rw [hpixel, ← mem_visited hx]
  cases s.pixel px py <;> simp

/-- The draw collides exactly when a covered pixel is on. -/
theorem drawing_collides (hn : n < 16) :
    (s.drawing x y n).2 = true ↔ ∃ px py, px < 64 ∧ py < 32 ∧ Covers s x y n px py ∧ s.pixel px py = true := by
  have hflag := (foldl_drawPixel _ (s.fb, false) (spritePixels_nodup s.mem s.i.toNat (s.getV x) (s.getV y) hn)
    fun _ => visited_lt).2
  rw [State.drawing, State.visited, hflag, Bool.false_or, List.any_eq_true]
  constructor
  · rintro ⟨k, hk, hon⟩
    have hlt := visited_lt hk
    have hsplit : k / 64 * 64 + k % 64 = k := Nat.div_add_mod' k 64
    have hx : k % 64 < 64 := Nat.mod_lt k (by decide)
    refine ⟨k % 64, k / 64, hx, by omega, (mem_visited hx).mp ?_, ?_⟩
    · rwa [hsplit]
    · rwa [State.pixel, hsplit]
  · rintro ⟨px, py, hx, -, hcovers, hon⟩
    exact ⟨py * 64 + px, (mem_visited hx).mpr hcovers, hon⟩

/-- `VF` after a draw, from what the draw collides with. -/
theorem drawn_VF (hn : n < 16) :
    ((∃ px py, px < 64 ∧ py < 32 ∧ Covers s x y n px py ∧ s.pixel px py = true) → (drawn x y n s).getV VF = 1) ∧
      ((¬ ∃ px py, px < 64 ∧ py < 32 ∧ Covers s x y n px py ∧ s.pixel px py = true) →
        (drawn x y n s).getV VF = 0) := by
  rw [← drawing_collides hn, drawn_getV, if_pos rfl]
  cases (s.drawing x y n).2 <;> simp [flagByte]

theorem exec_drw_inside (h : n = 0 ∨ s.i.toNat + n ≤ 4096) : exec (.drw x y n) s = .next (drawn x y n s) :=
  congrArg Host.Outcome.next (ifInMemory_inside (by omega))

/-- What a draw covers depends on memory, `I` and the coordinates. -/
theorem covers_congr (hmem : ∀ a, t.byteAt a = s.byteAt a) (hindex : t.i = s.i) (hx : t.getV x = s.getV x)
    (hy : t.getV y = s.getV y) (px py : Nat) : Covers t x y n px py ↔ Covers s x y n px py := by
  simp only [Covers, hmem, hindex, hx, hy]

end drawing

theorem standsFor_drw (x y : RegIx) {n : Nat} (hn : n < 16) :
    StandsFor (0xD000 + 256 * x.val + 16 * y.val + n) (.drw x y n) := by
  apply standsFor_of_encode
  · simpa [Instr.wf, countFits] using hn
  · rw [encode, encodeXYN_toNat, BitVec.toNat_ofNat, Nat.mod_eq_of_lt hn]
    bv_omega

/-- Settles O47: the draw visits the covered pixels, each once. -/
theorem drawFlipsTheCoveredPixels : Obligations.DrawFlipsTheCoveredPixels := by
  unfold Obligations.DrawFlipsTheCoveredPixels
  intro s x y n hn hin
  obtain ⟨hone, hzero⟩ := drawn_VF (s := s) (x := x) (y := y) hn
  refine ⟨standsFor_drw x y hn, _, exec_drw_inside hin, fun px py hx hy => drawn_pixel hn hx hy, hone, hzero,
    fun r hr => ?_, rfl, (drawn_frame s x y n).mono (by simp), rfl⟩
  rw [drawn_getV, if_neg (List.ne_of_not_mem_cons hr)]

/-- Two flips on one condition undo each other. -/
theorem eq_of_flipped_twice {a b c : Bool} {p : Prop} (hab : b ≠ a ↔ p) (hbc : c ≠ b ↔ p) : c = a := by
  cases a <;> cases b <;> cases c <;> simp_all

/-- A second draw that covers what the first covered collides where the first turned a pixel on. -/
theorem collides_after_draw {s t : State} {x y : RegIx} {n : Nat}
    (hcovers : ∀ px py, Covers t x y n px py ↔ Covers s x y n px py)
    (hfirst : ∀ px py, px < 64 → py < 32 → (t.pixel px py ≠ s.pixel px py ↔ Covers s x y n px py)) :
    (∃ px py, px < 64 ∧ py < 32 ∧ Covers t x y n px py ∧ t.pixel px py = true) ↔
      ∃ px py, px < 64 ∧ py < 32 ∧ Covers s x y n px py ∧ s.pixel px py = false := by
  simp only [hcovers]
  refine exists_congr fun px => exists_congr fun py =>
    and_congr_right fun hx => and_congr_right fun hy => and_congr_right fun hcovered => ?_
  have hflipped := (hfirst px py hx hy).mpr hcovered
  cases ht : t.pixel px py <;> simp_all

/-- Settles O48: both draws flip the same pixels, so that the second finds on what the first found off. -/
theorem drawingTwiceRestoresThePixels : Obligations.DrawingTwiceRestoresThePixels := by
  unfold Obligations.DrawingTwiceRestoresThePixels
  refine ⟨fun cx cy r c r' c' => pixelIndex_inj, fun s x y n hn hin => ⟨_, exec_drw_inside hin, fun hvx hvy => ?_⟩⟩
  have hframe := drawn_frame s x y n
  have hcovers := covers_congr (n := n) (hframe .mem (by simp)) (hframe .index (by simp)) hvx hvy
  have hfirst (px py : Nat) (hx : px < 64) (hy : py < 32) := drawn_pixel (s := s) (x := x) (y := y) hn hx hy
  have hvf := drawn_VF (s := drawn x y n s) (x := x) (y := y) hn
  rw [collides_after_draw hcovers hfirst] at hvf
  refine ⟨_, exec_drw_inside hin, fun px py hx hy => ?_, hvf⟩
  exact eq_of_flipped_twice (hfirst px py hx hy) ((drawn_pixel hn hx hy).trans (hcovers px py))

/-! ### Which instructions write the framebuffer (R43) -/

theorem cls_or_drw_of_fb_mem_writes {i : Instr} (h : .fb ∈ i.writes) : i = .cls ∨ ∃ x y n, i = .drw x y n := by
  cases i <;> simp [Instr.writes] at h ⊢

/-- Settles O49: every other instruction's frame contains the framebuffer. -/
theorem framebufferHasTwoWriters : Obligations.FramebufferHasTwoWriters := by
  unfold Obligations.FramebufferHasTwoWriters
  intro i s t h hne
  exact cls_or_drw_of_fb_mem_writes (mem_writes_of_changed (p := .fb) h hne)

end Sys2Proof.Machine
end

section
/-! PROOFS. Keys and the wait: the key tests by their two ends, and a wait from its `Fx0A` to the step that completes it
(R300 to R302, R305, R334). -/

namespace Sys2Proof.Machine

/-! ### The key tests (R300 to R302) -/

section keyTests
variable {wanted : Bool → Bool} {x : RegIx} {s : State} {i : Instr}

theorem KeyTestEnds.of_key {r : Result} (h : KeyTestEnds wanted x s r) {k : KeyIx} (hk : (s.getV x).toNat = k.val) :
    r = .next (s.skipIf (wanted s.keys[k])) := by
  rcases h with ⟨k', hk', heq⟩ | ⟨hbad, -⟩
  · cases Fin.ext (hk.symm.trans hk')
    exact heq
  · omega

theorem KeyTestEnds.of_bad {r : Result} (h : KeyTestEnds wanted x s r) (hbad : 0xF < (s.getV x).toNat) :
    ∃ t, r = .next t ∧ Raises (.invalidKeyIndex (s.getV x)) s t := by
  rcases h with ⟨k, hk, -⟩ | ⟨-, heq⟩
  · omega
  · exact ⟨_, heq, fatal_raises s _⟩

end keyTests

/-- Settles O50: a test of a key skips on the latch, a test of any other value raises. -/
theorem keyTestsSkipOnTheLatch : Obligations.KeyTestsSkipOnTheLatch := by
  unfold Obligations.KeyTestsSkipOnTheLatch
  refine fun s x => ⟨⟨standsFor_x rfl rfl rfl, standsFor_x rfl rfl rfl⟩, fun k hk => ⟨?_, ?_⟩,
    fun hbad => ⟨(execSkp_ends x s).of_bad hbad, (execSknp_ends x s).of_bad hbad⟩⟩
  · exact skipsWhen_of_skipIf ((execSkp_ends x s).of_key hk) Iff.rfl
  · exact skipsWhen_of_skipIf ((execSknp_ends x s).of_key hk) (Bool.not_eq_true' _).to_iff

/-! ### The wait (R142, R305, R334) -/

theorem setKey_of_valid (s : State) (k : KeyIx) (b : Bool) : s.setKey k.val b = .ok (s.putKey k b) :=
  dif_pos (show (0 : Int) ≤ k.val ∧ (k.val : Int) < 16 by omega)

/-- The state in which `Fx0A` has started its wait (R305). -/
def State.startWait (s : State) (x : RegIx) : State := { s with wait := .waiting x none }.reportWaiting

theorem step_startWait {s : State} (x : RegIx) (hfault : s.fault = none) :
    step (s.startWait x) = .next (s.startWait x) :=
  (StepCase.pending (s := s.startWait x) x hfault rfl).step_eq

/-- A wait that has its key keeps it, whatever key call follows. -/
theorem putKey_wait_of_key {s : State} {x : RegIx} {k : KeyIx} (hwait : s.wait = .waiting x (some k)) (j : KeyIx)
    (b : Bool) : (s.putKey j b).wait = .waiting x (some k) :=
  (putKey_wait_of_no_press (.inr (.inr (by simp [hwait])))).trans hwait

/-- A press of a released key completes the wait at the next step, with one more key call between. -/
theorem step_after_press {s : State} {x : RegIx} {k : KeyIx} (hkey : s.keys[k] = false) (hfault : s.fault = none)
    (j : KeyIx) (b : Bool) :
    ∃ w, step (((s.startWait x).putKey k true).putKey j b) = .next w ∧ (w.getV x).toNat = k.val ∧
      RegsSameBut [x] s w ∧ w.pc = s.pc + 2 ∧ w.wait = .idle ∧ OnlyChanges [.regs, .pc, .keys, .wait] s w ∧
      w.out = .quiet := by
  have hpress : ((s.startWait x).putKey k true).wait = .waiting x (some k) := putKey_wait_of_press hkey rfl
  obtain ⟨w, hstep, hx, hregs, hpc, hidle, hframe, hout⟩ :=
    step_of_wait_with_key (s := ((s.startWait x).putKey k true).putKey j b) hfault (putKey_wait_of_key hpress j b)
  have hkeys := ((startWait_frame s x).trans (putKey_frame _ k true)).trans (putKey_frame _ j b)
  exact ⟨w, hstep, hx, hregs, hpc, hidle, (hkeys.trans hframe).mono (by simp), hout⟩

/-- Settles O51, by the life of a wait: it starts, waits on, passes by a key that is held, and completes at a press. -/
theorem keyWaitCompletesAtAPress : Obligations.KeyWaitCompletesAtAPress := by
  unfold Obligations.KeyWaitCompletesAtAPress
  refine fun s x => ⟨standsFor_x rfl rfl rfl, s.startWait x, rfl, rfl, startWait_frame s x, rfl, step_startWait x,
    ⟨rfl, countDown_toNat s.dt, countDown_toNat s.st⟩, fun k => ?_⟩
  refine ⟨_, setKey_of_valid _ k true, fun hheld => ?_, fun hreleased hfault j b => ?_⟩
  · exact putKey_wait_of_no_press (s := s.startWait x) (.inr (.inl hheld))
  · obtain ⟨w, hw⟩ := step_after_press (x := x) hreleased hfault j b
    exact ⟨_, w, setKey_of_valid _ j b, hw⟩

end Sys2Proof.Machine
end
